-- ==== Sys2Proof/Word.lean ====
section
/-!
DEFINITION. The word types of the block: the byte, and the decode words of spec/30_encoding.md section 2
(the formats WT, WF, WD, RQ, CS, EV, LP, RS), as the bytes of one word together with the input line the
word arrives on. The block has no instruction memory (R38): the formats share bit patterns, and what tells
them apart is the line, never a field of the word (R62, R67).
-/

namespace Sys2Proof

/-- A byte: every cell, the pointer and the PWM level are 8 bits wide (R11, R14). -/
abbrev Byte := BitVec 8

/-- The input line, or the place inside an operation, a decode word belongs to: the "format" and "selected
by" columns of R74. -/
inductive Line
  /-- Format WT: a whole write transaction (R60). -/
  | wt
  /-- Format WF: the first byte of an accepted write transaction (R64, R81). -/
  | wfPtr
  /-- Format WF: a later byte of an accepted write transaction (R64, R82). -/
  | wfData
  /-- Format WD: the word (PTR, D) of one data byte (R63). -/
  | wd
  /-- Format RQ: a read request, the word PTR (R65). -/
  | rq
  /-- Format CS: the calibration step word (CAL_ACTIVE, CAL_ARMED) with its two conditions (R66). -/
  | cs
  /-- Format LP: a sequencer pass with its time sample (R67). -/
  | lp
  /-- Format RS: the reset input with its time sample (R67). -/
  | rs
  /-- Format EV: a qualifying tachometer edge (R67, R100). -/
  | evTacho
  /-- Format EV, internal: the drain (R67, R101). -/
  | evDrain
  /-- Format EV, internal: the measurement tick (R67, R113). -/
  | evTick
  /-- Format EV, internal: the remap result driven onto the output (R67, R131). -/
  | evApply
  /-- Format EV: the start of a blink (R67, R140). -/
  | evAssert
  /-- Format EV: the end of a blink (R67, R141). -/
  | evRelease
deriving DecidableEq, Repr

/-- One decode word: its line and its bytes, the byte with bits 7..0 first (the numbering of
spec/opcode_table.json). -/
structure Frame where
  /-- The line the word arrives on. -/
  line : Line
  /-- The word's bytes, bits 7..0 first; for format WT the transaction's bytes in bus order. -/
  bytes : List Byte
deriving DecidableEq, Repr

end Sys2Proof
end

