-- ==== Sys2Proof/Config.lean ====
section
/-!
DEFINITION. The implementation parameters of spec/00_scope.md section 4 (R4 to R13): the four parameters
some rule reads, as plain data; the fixed numbers of this hardware; and the three OPEN parameters no rule
reads, as constants without a value.
-/

namespace Sys2Proof

/-- The parameters "the model takes as an argument" that some rule reads (R5 to R8). A machine state
carries its parameters, and no operation writes them. -/
structure Config where
  /-- RXBUF_N, the most bytes a write transaction may carry, the pointer byte included (R5). -/
  rxbufN : Nat
  /-- TIME_W, the width in bits of the time source and of DEADLINE (R6). -/
  timeW : Nat
  /-- TACHO_W, the width in bits of the tachometer counter (R7). -/
  tachoW : Nat
  /-- PERIOD_S, the measurement period in whole seconds (R8). -/
  periodS : Nat
deriving DecidableEq, Repr

/-- The spec's default of every parameter: RXBUF_N = 16 (R5), TIME_W = 32 (R6), TACHO_W = 16 (R7), and
this hardware's PERIOD_S = 3 (R8). DESIGN CHOICE of the spec for the first three (D6, D12, D11). -/
def Config.standard : Config := { rxbufN := 16, timeW := 32, tachoW := 16, periodS := 3 }

/-- PERIOD_MS = 1000 * PERIOD_S (R8). -/
def Config.periodMs (c : Config) : Nat := 1000 * c.periodS

/-- The bounds R5 to R8 put on the parameters, with `PERIOD_MS < 2^(TIME_W-1)` of R6. -/
abbrev Config.wf (c : Config) : Prop :=
  1 ≤ c.rxbufN ∧ 2 ≤ c.timeW ∧ 1 ≤ c.tachoW ∧ 1 ≤ c.periodS ∧ c.periodMs < 2 ^ (c.timeW - 1)

/-- NREG, the number of cells of the register file (R4). -/
def nreg : Nat := 6

/-- RPM_THRESHOLD: calibration succeeds strictly above it (R9). -/
def rpmThreshold : Nat := 200

/-- CAL_STEP as a number: the PWM increment of one ramp tick (R10). -/
def rampIncrement : Nat := 5

/-- CAL_MARGIN: what calibration success adds to the winning level (R10). -/
def calMargin : Nat := 5

/-- PWM_MAX, the hardware maximum of the PWM level (R11). -/
def pwmMax : Nat := 255

/-- The pin transitions that may count as a qualifying tachometer edge (R13). -/
inductive EdgeKind
  /-- Rising edges count. -/
  | rising
  /-- Falling edges count. -/
  | falling
  /-- Both count. -/
  | both
deriving DecidableEq, Repr, Inhabited

/-- I2C_ADDR, the 7-bit slave address: OPEN, matched by the transport, read by no rule (R12). -/
opaque Config.i2cAddr : BitVec 7

/-- BLINK_HOLD_MS, the indicator hold time: OPEN, read by no rule (R13, D19). -/
opaque Config.blinkHoldMs : Nat

/-- EDGE_KIND: OPEN, decided by the external edge source, read by no rule (R13, D28). -/
opaque Config.edgeKind : EdgeKind

end Sys2Proof
end

