-- ==== Sys2Proof/Syntax.lean ====
section
/-!
DEFINITION. The operations of the block, one constructor per mnemonic of spec/opcode_table.json (R74): the
block executes no program, and "the spec treats the block's interface operations as its instructions".
-/

namespace Sys2Proof

/-- The 26 operations of R74. -/
inductive Instr
  /-- WRITE_BURST: one accepted write transaction, `b[0]` the pointer byte (R80). -/
  | writeBurst (b : List Byte)
  /-- WR_PTR: the pointer byte (R81). -/
  | wrPtr (p : Byte)
  /-- WR_DATA: one data byte, dispatched on PTR (R82). -/
  | wrData (d : Byte)
  /-- WR_REJECT: a write transaction of 0 or of more than RXBUF_N bytes (R90). -/
  | wrReject (b : List Byte)
  /-- WR_STATUS: a data byte at PTR = 0 (R83). -/
  | wrStatus (d : Byte)
  /-- WR_SPEED: a data byte at PTR = 1 (R84). -/
  | wrSpeed (d : Byte)
  /-- WR_FLOOR: a data byte at PTR = 2 (R85). -/
  | wrFloor (d : Byte)
  /-- WR_RPS: a data byte at PTR = 3 (R86). -/
  | wrRps (d : Byte)
  /-- WR_RPM_LO: a data byte at PTR = 4 (R87). -/
  | wrRpmLo (d : Byte)
  /-- WR_RPM_HI: a data byte at PTR = 5 (R88). -/
  | wrRpmHi (d : Byte)
  /-- WR_NONE: a data byte at PTR = p, p >= 6 (R89; the table's six rows). -/
  | wrNone (p d : Byte)
  /-- READ: one read request; it has no operands (R91). -/
  | read
  /-- TACHO_EDGE: one qualifying edge (R100). -/
  | tachoEdge
  /-- DRAIN: read and reset the tachometer counter (R101). -/
  | drain
  /-- LOOP_PASS: one sequencer pass at the time sample `now` (R110). -/
  | loopPass (now : Nat)
  /-- MEAS_TICK: the periodic work at the time sample `now` (R113). -/
  | measTick (now : Nat)
  /-- CAL_IDLE (R118). -/
  | calIdle
  /-- CAL_STOP (R119). -/
  | calStop
  /-- CAL_TO_RAMP (R120). -/
  | calToRamp
  /-- CAL_SUCCESS (R121). -/
  | calSuccess
  /-- CAL_RAMP (R122). -/
  | calRamp
  /-- CAL_FAIL (R123). -/
  | calFail
  /-- APPLY_LEVEL: the level `v` driven onto the PWM output (R131). -/
  | applyLevel (v : Byte)
  /-- IND_ASSERT: the start of a blink (R140). -/
  | indAssert
  /-- IND_RELEASE: the end of a blink (R141). -/
  | indRelease
  /-- RESET at the time sample `nowReset` (R170). -/
  | reset (nowReset : Nat)
deriving DecidableEq, Repr

end Sys2Proof
end

