-- ==== Sys2Proof/WellFormed.lean ====
section
/-!
DEFINITION. When an operation is one the encodings of spec/30_encoding.md can express: the accepted lengths
of a write transaction (R60, R64), the pointer range of WR_NONE (R63), and the width of a time sample (R67).
Every other operand is a byte and every byte value is legal (R68).
-/

namespace Sys2Proof

/-- `1 <= k <= RXBUF_N`: the lengths of an accepted write transaction (R60, R64). -/
def acceptedLength (c : Config) (k : Nat) : Bool := decide (1 ≤ k) && decide (k ≤ c.rxbufN)

/-- An operation as its encoding can express it, for the parameters `c`. -/
def Instr.wf (c : Config) : Instr → Bool
  | .writeBurst b => acceptedLength c b.length
  | .wrPtr _ => true
  | .wrData _ => true
  | .wrReject b => !acceptedLength c b.length
  | .wrStatus _ => true
  | .wrSpeed _ => true
  | .wrFloor _ => true
  | .wrRps _ => true
  | .wrRpmLo _ => true
  | .wrRpmHi _ => true
  | .wrNone p _ => decide (nreg ≤ p.toNat)
  | .read => true
  | .tachoEdge => true
  | .drain => true
  | .loopPass now => decide (now < 2 ^ c.timeW)
  | .measTick now => decide (now < 2 ^ c.timeW)
  | .calIdle => true
  | .calStop => true
  | .calToRamp => true
  | .calSuccess => true
  | .calRamp => true
  | .calFail => true
  | .applyLevel _ => true
  | .indAssert => true
  | .indRelease => true
  | .reset now => decide (now < 2 ^ c.timeW)

end Sys2Proof
end

