-- ==== Sys2Proof/Decode.lean ====
section
/-!
DEFINITION. The decoder of spec/30_encoding.md section 2, total on any bytes of any line and rejecting by
name; after it the encoder, from the same tables; and the words of spec/opcode_table.json as numbers.
-/

namespace Sys2Proof

/-- Why a frame is no decode word. -/
inductive DecodeError
  /-- The line's format has another number of bytes (R60 to R67). -/
  | wrongLength (line : Line)
  /-- A bit the line's format does not have is 1. -/
  | reservedBits (line : Line)
deriving DecidableEq, Repr

/-- The number whose bytes are `bs`, bits 7..0 first. -/
def ofBytes : List Byte → Nat
  | [] => 0
  | b :: bs => b.toNat + 256 * ofBytes bs

/-- The `n` low bytes of `v`, bits 7..0 first. -/
def toBytes : Nat → Nat → List Byte
  | 0, _ => []
  | n + 1, v => BitVec.ofNat 8 v :: toBytes n (v / 256)

/-- The whole bytes a `TIME_W`-bit word takes (R67; log entry 12). -/
def timeBytes (c : Config) : Nat := (c.timeW + 7) / 8

/-- Format WT: the count alone decides between WRITE_BURST and WR_REJECT (R64). -/
def decodeBurst (c : Config) (b : List Byte) : Instr :=
  if 1 ≤ b.length ∧ b.length ≤ c.rxbufN then .writeBurst b else .wrReject b

/-- Format WD: bits 15:8, the pointer, alone select the operation (R63). -/
def decodeData (p d : Byte) : Instr :=
  match p.toNat with
  | 0 => .wrStatus d
  | 1 => .wrSpeed d
  | 2 => .wrFloor d
  | 3 => .wrRps d
  | 4 => .wrRpmLo d
  | 5 => .wrRpmHi d
  | _ => .wrNone p d

/-- Format CS: `active` and `armed` are bits 1 and 0, `above` is the condition RPM > 200 and `full` the
condition PWM_LEVEL = 255 (R66). -/
def decodeCal (active armed above full : Bool) : Instr :=
  match active, armed with
  | false, false => .calIdle
  | false, true => .calStop
  | true, true => .calToRamp
  | true, false => if above then .calSuccess else if full then .calFail else .calRamp

/-- A time sample: `TIME_W` bits in whole bytes, the bits above them 0 (R67). -/
def decodeTime (c : Config) (line : Line) (mk : Nat → Instr) (bs : List Byte) : Except DecodeError Instr :=
  if bs.length = timeBytes c then
    if ofBytes bs < 2 ^ c.timeW then .ok (mk (ofBytes bs)) else .error (.reservedBits line)
  else .error (.wrongLength line)

/-- A word of one byte. -/
def decodeByte (line : Line) (mk : Byte → Instr) : List Byte → Except DecodeError Instr
  | [b] => .ok (mk b)
  | _ => .error (.wrongLength line)

/-- An event that carries no bits (R67). -/
def decodeEvent (line : Line) (i : Instr) : List Byte → Except DecodeError Instr
  | [] => .ok i
  | _ => .error (.wrongLength line)

/-- A WD word: its first byte is D, bits 7:0, its second PTR, bits 15:8 (R63). -/
def decodeWd : List Byte → Except DecodeError Instr
  | [d, p] => .ok (decodeData p d)
  | _ => .error (.wrongLength .wd)

/-- A CS word: bits 1 and 0 of its first byte are CAL_ACTIVE and CAL_ARMED (R66), bits 0 and 1 of its second
the two conditions (log entry 10). -/
def decodeCs : List Byte → Except DecodeError Instr
  | [w, q] =>
    if w.toNat < 4 ∧ q.toNat < 4 then
      .ok (decodeCal (w.getLsbD 1) (w.getLsbD 0) (q.getLsbD 0) (q.getLsbD 1))
    else .error (.reservedBits .cs)
  | _ => .error (.wrongLength .cs)

/-- The operation a frame stands for, for the parameters `c` (R60 to R67, R74). DESIGN CHOICE (log entry 22): R67
calls the events operand-free and lays out no bits for MEAS_TICK's `now` and APPLY_LEVEL's `v`; here their words
carry them, `now` in the whole bytes of TIME_W bits and `v` in one byte, and without them have a wrong length. -/
def decode (c : Config) (f : Frame) : Except DecodeError Instr :=
  match f.line with
  | .wt => .ok (decodeBurst c f.bytes)
  | .wfPtr => decodeByte .wfPtr .wrPtr f.bytes
  | .wfData => decodeByte .wfData .wrData f.bytes
  | .wd => decodeWd f.bytes
  | .rq => decodeByte .rq (fun _ => .read) f.bytes
  | .cs => decodeCs f.bytes
  | .lp => decodeTime c .lp .loopPass f.bytes
  | .rs => decodeTime c .rs .reset f.bytes
  | .evTacho => decodeEvent .evTacho .tachoEdge f.bytes
  | .evDrain => decodeEvent .evDrain .drain f.bytes
  | .evTick => decodeTime c .evTick .measTick f.bytes
  | .evApply => decodeByte .evApply .applyLevel f.bytes
  | .evAssert => decodeEvent .evAssert .indAssert f.bytes
  | .evRelease => decodeEvent .evRelease .indRelease f.bytes

/-- The CS word of one calibration step operation: its CAL_STATE bits (R66) and the fewest condition bits
that select it. -/
def csFrame (w q : Byte) : Frame := { line := .cs, bytes := [w, q] }

/-- The word of an operation (R60 to R67). A READ's word is PTR, which is no operand of it: 0x00 stands
there (R65, R91; log entry 16). The operand bytes of MEAS_TICK and APPLY_LEVEL are the model's (log entry
22). -/
def encode (c : Config) : Instr → Frame
  | .writeBurst b => { line := .wt, bytes := b }
  | .wrPtr p => { line := .wfPtr, bytes := [p] }
  | .wrData d => { line := .wfData, bytes := [d] }
  | .wrReject b => { line := .wt, bytes := b }
  | .wrStatus d => { line := .wd, bytes := [d, 0x00#8] }
  | .wrSpeed d => { line := .wd, bytes := [d, 0x01#8] }
  | .wrFloor d => { line := .wd, bytes := [d, 0x02#8] }
  | .wrRps d => { line := .wd, bytes := [d, 0x03#8] }
  | .wrRpmLo d => { line := .wd, bytes := [d, 0x04#8] }
  | .wrRpmHi d => { line := .wd, bytes := [d, 0x05#8] }
  | .wrNone p d => { line := .wd, bytes := [d, p] }
  | .read => { line := .rq, bytes := [0x00#8] }
  | .tachoEdge => { line := .evTacho, bytes := [] }
  | .drain => { line := .evDrain, bytes := [] }
  | .loopPass now => { line := .lp, bytes := toBytes (timeBytes c) now }
  | .measTick now => { line := .evTick, bytes := toBytes (timeBytes c) now }
  | .calIdle => csFrame 0b00#8 0b00#8
  | .calStop => csFrame 0b01#8 0b00#8
  | .calToRamp => csFrame 0b11#8 0b00#8
  | .calSuccess => csFrame 0b10#8 0b01#8
  | .calRamp => csFrame 0b10#8 0b00#8
  | .calFail => csFrame 0b10#8 0b10#8
  | .applyLevel v => { line := .evApply, bytes := [v] }
  | .indAssert => { line := .evAssert, bytes := [] }
  | .indRelease => { line := .evRelease, bytes := [] }
  | .reset now => { line := .rs, bytes := toBytes (timeBytes c) now }

/-- The frame of a table word of `nbits` bits. The table gives no line and its formats share bit patterns,
so the width chooses (log entry 11): 16 bits are WD, 8 bits below 4 are CS (with its condition byte 0) and
the other bytes RQ, 32 bits are LP, no bits are a tachometer edge, and other whole bytes are a WT burst. -/
def tableFrame (nbits w : Nat) : Frame :=
  match nbits with
  | 0 => { line := .evTacho, bytes := [] }
  | 2 => { line := .cs, bytes := toBytes 2 w }
  | 8 => if w < 4 then { line := .cs, bytes := toBytes 2 w } else { line := .rq, bytes := toBytes 1 w }
  | 16 => { line := .wd, bytes := toBytes 2 w }
  | 32 => { line := .lp, bytes := toBytes 4 w }
  | n => { line := .wt, bytes := toBytes ((n + 7) / 8) w }

/-- The operation the decoder reads from a word of spec/opcode_table.json, at the default parameters (log
entries 10 and 11). -/
def decodeTableWord (nbits w : Nat) : Option Instr :=
  match decode Config.standard (tableFrame nbits w) with
  | .ok i => some i
  | .error _ => none

end Sys2Proof
end

