-- ==== Sys2Proof/Machine/State.lean ====
section
/-!
DEFINITION. The architectural state of spec/10_state.md (R20 to R40) as plain data, the block's inputs as
requests (R37, R17), the reasons a step can stop, and the state after reset (R40, R170).
-/

namespace Sys2Proof.Machine

open Sys2Proof

/-- The register file as its cells that do not read 0x00, in rising order of their index: an unlisted
cell reads 0x00, which is what reset leaves (R40) and what a pointer of 6 or more reads (R46). -/
structure Memory where
  /-- The listed cells: (index, byte). -/
  cells : List Host.Cell
deriving DecidableEq, Repr

/-- IND_PHASE (R36). -/
inductive IndPhase
  /-- Not inside an indicator hold. -/
  | free
  /-- Inside the blocking indicator hold. -/
  | holding
deriving DecidableEq, Repr

/-- CAL_STATE: the four states of the calibration machine (R29). -/
inductive CalState
  /-- No calibration: neither flag is set. -/
  | idle
  /-- Requested: armed, not active. -/
  | stopRequested
  /-- The fan is being stopped: armed and active. -/
  | stopping
  /-- Ramping: active, not armed. -/
  | ramping
deriving DecidableEq, Repr

/-- One whole operation an agent asks for, with its input (R17, R37, R52). No other operation can be asked
for: the internal operations of R67 and the operations of one byte are performed only inside these. What a
decode word takes from the state (PTR, CAL_STATE and the conditions) is no part of a request. -/
inductive Request
  /-- BUS: a write transaction, its bytes and so its count (R60). -/
  | burst (b : List Byte)
  /-- BUS: a read request (R61). -/
  | readByte
  /-- TACHO: a qualifying edge (R100). -/
  | edge
  /-- SEQ, with ENV's time sample: a pass of the loop (R110). -/
  | pass (now : Nat)
  /-- SEQ: the end of the indicator hold (R141). -/
  | release
  /-- ENV: power-on, with the time source's value (R170). -/
  | reset (nowReset : Nat)
deriving DecidableEq, Repr

/-- A place inside a whole operation where a decode word of the table is formed and decided (R63, R66). Only
`State.withFetchWord` lets a step begin at one (log entry 7). -/
inductive Inner
  /-- Inside a write transaction, at a data byte: the word WD of PTR and the byte (R63, R82). -/
  | dataByte (d : Byte)
  /-- Inside a measurement tick, at the calibration step: the word CS (R66, R117). -/
  | calStep
deriving DecidableEq, Repr

/-- Why a machine stops with a fault: it never does. "No exception/error-return mechanism exists; all faults
are handled by silent policy" (R18, R150, D38), so this type has no constructor. -/
inductive Fault
deriving DecidableEq, Repr

/-- Why an operation has no meaning. -/
inductive Refusal
  /-- Raised by exec for an operation the model gives no meaning; no arm does. Safe: the machine stops. -/
  | notModelled (mnemonic : String)
  /-- Raised by step where the frame it formed is no decode word; it forms no such frame. Safe: the machine
  stops. -/
  | undecodable (why : DecodeError)
deriving DecidableEq, Repr

/-- The state of the block (R20 to R36), its parameters, the outputs and results the rules name but R40 does
not store (log entries 4, 5), the place the next step begins at (log entry 7) and the requests not yet served
(log entry 6). -/
structure State where
  /-- The parameters R5 to R8; no operation writes them. -/
  cfg : Config
  /-- The register file REG (R20). -/
  mem : Memory
  /-- PTR (R27). -/
  ptr : Byte
  /-- CAL_ARMED (R28). -/
  calArmed : Bool
  /-- CAL_ACTIVE (R28). -/
  calActive : Bool
  /-- PWM_LEVEL (R31), which is also the output port pwm_out (R39). -/
  pwmLevel : Byte
  /-- TACHO_CNT, below 2^TACHO_W (R32; log entry 2). -/
  tachoCnt : Nat
  /-- DEADLINE, below 2^TIME_W (R33; log entry 2). -/
  deadline : Nat
  /-- BLINK_REQ (R34). -/
  blinkReq : Bool
  /-- IND_OUT (R35), which is also the output port ind_out (R39). -/
  indOut : Bool
  /-- IND_PHASE (R36). -/
  indPhase : IndPhase
  /-- The output port "the byte each read request returns" (R39): the byte of the last READ. -/
  readData : Byte
  /-- The result of the last DRAIN, the "pulses" of R101 and R113, below 2^TACHO_W. -/
  pulses : Nat
  /-- The place inside a whole operation at which the next step begins; none in every run of the block, whose
  steps are whole (R52). -/
  inner : Option Inner
  /-- The requests not yet served, in the order their steps take effect (R53). -/
  pending : List Request
deriving DecidableEq, Repr

/-- The block right after reset, at the default parameters and with the time source at 0 (R40, R170 with
`now_reset = 0`; log entries 1 and 3), with no request placed. -/
def State.reset : State where
  cfg := Config.standard
  mem := { cells := [] }
  ptr := 0x00#8
  calArmed := true
  calActive := false
  pwmLevel := 0x00#8
  tachoCnt := 0
  deadline := (0 + Config.standard.periodMs) % 2 ^ Config.standard.timeW
  blinkReq := false
  indOut := false
  indPhase := .free
  readData := 0x00#8
  pulses := 0
  inner := none
  pending := []

end Sys2Proof.Machine
end

