-- ==== Sys2Proof/Machine/Ops.lean ====
section
/-!
DEFINITION. The shared operations on numbers, on the register file and on the pointer: the notation of
spec/00_scope.md R15 and R16, and the address space of spec/20_memory.md R45 to R48. The block has no
exception mechanism (R150), so there is no operation that takes one and none that returns from one.
-/

namespace Sys2Proof.Machine

open Sys2Proof

/-- `trunc_w(v)`: the least non-negative remainder modulo 2^w, of an exact integer (R15). -/
def truncInt (w : Nat) (v : Int) : Nat := (v % ((2 ^ w : Nat) : Int)).toNat

/-- `trunc_w(v)` of a natural number (R15). -/
def trunc (w v : Nat) : Nat := v % 2 ^ w

/-- `trunc_8(v)` as a byte (R15). -/
def trunc8 (v : Nat) : Byte := BitVec.ofNat 8 v

/-- `signed_w(v)` of a w-bit value (R15). -/
def signed (w v : Nat) : Int := if v < 2 ^ (w - 1) then v else v - ((2 ^ w : Nat) : Int)

/-- The byte of the first listed cell at `a`; 0x00 where none is listed. -/
def cellsRead : List Host.Cell → Nat → Byte
  | [], _ => 0x00#8
  | (k, x) :: r, a => if k = a then x else cellsRead r a

/-- The cells without those at `a`. -/
def cellsErase : List Host.Cell → Nat → List Host.Cell
  | [], _ => []
  | (k, x) :: r, a => if k = a then cellsErase r a else (k, x) :: cellsErase r a

/-- The cells with (a, v) put before the first one of a larger index. -/
def cellsInsert : List Host.Cell → Nat → Byte → List Host.Cell
  | [], a, v => [(a, v)]
  | (k, x) :: r, a, v => if a < k then (a, v) :: (k, x) :: r else (k, x) :: cellsInsert r a v

/-- REG[a] (R20). -/
def Memory.read (m : Memory) (a : Nat) : Byte := cellsRead m.cells a

/-- REG[a] <- v: a cell that comes to hold 0x00 is listed no more. -/
def Memory.write (m : Memory) (a : Nat) (v : Byte) : Memory :=
  if v = 0x00#8 then { cells := cellsErase m.cells a }
  else { cells := cellsInsert (cellsErase m.cells a) a v }

/-- The canonical form from `lo` on: indices rise strictly, stay below NREG, and no cell holds 0x00. -/
def cellsWf : Nat → List Host.Cell → Bool
  | _, [] => true
  | lo, (k, x) :: r => decide (lo ≤ k) && decide (k < nreg) && decide (x ≠ 0x00#8) && cellsWf (k + 1) r

/-- The register file is in its one canonical form. -/
def Memory.wf (m : Memory) : Bool := cellsWf 0 m.cells

/-- `REG[i]` of a state. -/
def State.reg (s : State) (i : Nat) : Byte := s.mem.read i

/-- `REG[i] <- v` in a state. -/
def State.setReg (s : State) (i : Nat) (v : Byte) : State := { s with mem := s.mem.write i v }

/-- `MemRead(p, 1)`: a pointer of 6 or more reads 0x00 (R16, R46). -/
def State.memRead (s : State) (p : Byte) : Byte := if p.toNat < nreg then s.reg p.toNat else 0x00#8

/-- `MemWrite(p, 1, v)`: a pointer of 6 or more stores nothing (R16, R46). -/
def State.memWrite (s : State) (p v : Byte) : State := if p.toNat < nreg then s.setReg p.toNat v else s

/-- `adv(p)`: the pointer after one byte (R48). -/
def adv (p : Byte) : Byte := if p.toNat + 1 ≥ nreg then 0x00#8 else BitVec.ofNat 8 (p.toNat + 1)

/-- The output port pwm_out (R39). -/
def State.pwmOut (s : State) : Byte := s.pwmLevel

end Sys2Proof.Machine
end

