-- ==== Sys2Proof/Machine/Flags.lean ====
section
/-!
DEFINITION. The block's flags: the calibration state the two internal flags name, the lockout, and Status
bit 0 (spec/10_state.md R21, R28 to R30).
-/

namespace Sys2Proof.Machine

open Sys2Proof

/-- CAL_STATE from the flags CAL_ACTIVE and CAL_ARMED (R29). -/
def calStateOf (active armed : Bool) : CalState :=
  match active, armed with
  | false, false => .idle
  | false, true => .stopRequested
  | true, true => .stopping
  | true, false => .ramping

/-- CAL_STATE of a state (R29). -/
def State.calState (s : State) : CalState := calStateOf s.calActive s.calArmed

/-- LOCKED: CAL_ACTIVE = 1 or CAL_ARMED = 1 (R30). -/
def State.locked (s : State) : Bool := s.calActive || s.calArmed

/-- Status bit 0 set: `REG[0] <- REG[0] | 0x01` (R119, R122). -/
def State.setCalBit (s : State) : State := s.setReg 0 (s.reg 0 ||| 0x01#8)

/-- Status bit 0 cleared: `REG[0] <- REG[0] & 0xFE` (R121, R123). -/
def State.clearCalBit (s : State) : State := s.setReg 0 (s.reg 0 &&& 0xFE#8)

end Sys2Proof.Machine
end

