-- ==== Sys2Proof/Machine/Operands.lean ====
section
/-!
DEFINITION. What the operations compute from the state and from an input before they act: the comparator,
the measured speeds, the remap, and the decode words the block forms (R62 to R68, R111, R114, R130).
-/

namespace Sys2Proof.Machine

open Sys2Proof

/-- `elapsed(now, dl)`: the difference, as a signed w-bit value, is not negative (R111). -/
def elapsed (w now dl : Nat) : Bool := decide (0 ≤ signed w (truncInt w ((now : Int) - (dl : Int))))

/-- `rps = pulses div PERIOD_S` (R114). -/
def rpsOf (c : Config) (pulses : Nat) : Nat := pulses / c.periodS

/-- `rpm = (pulses * 60) div PERIOD_S`, exact (R114). -/
def rpmOf (c : Config) (pulses : Nat) : Nat := (pulses * 60) / c.periodS

/-- The rpm of the last drained window, the operand of the calibration step (R113, R117). -/
def State.rpm (s : State) : Nat := rpmOf s.cfg s.pulses

/-- `level(s, f)`: the speed remap; the division truncates (R130, D8). -/
def level (s f : Byte) : Byte :=
  if s = 0x00#8 then 0x00#8 else trunc8 (f.toNat + (s.toNat * (255 - f.toNat)) / 255)

/-- A bit as a byte. -/
def bitByte (b : Bool) : Byte := if b then 0x01#8 else 0x00#8

/-- The condition `rpm > 200` of a Ramping step (R66, R117). -/
def State.rpmAbove (s : State) : Bool := decide (s.rpm > rpmThreshold)

/-- The condition `PWM_LEVEL = 255` of a Ramping step, the opposite of `PWM_LEVEL < PWM_MAX` (R66, R117). -/
def State.pwmFull (s : State) : Bool := !decide (s.pwmLevel.toNat < pwmMax)

/-- The CS word of a state: CAL_ACTIVE and CAL_ARMED in bits 1 and 0 (R66), the two conditions in the byte
above (log entry 10). -/
def State.csBytes (s : State) : List Byte :=
  [bitByte s.calArmed ||| (bitByte s.calActive <<< 1), bitByte s.rpmAbove ||| (bitByte s.pwmFull <<< 1)]

/-- A time sample as the port `time_ms[TIME_W-1:0]` presents it (R37, R67; log entry 17). -/
def timeFrame (c : Config) (line : Line) (now : Nat) : Frame :=
  { line := line, bytes := toBytes (timeBytes c) (trunc c.timeW now) }

/-- The decode word of a request: its input, with PTR for RQ (R60, R65, R67). -/
def State.frameOf (s : State) : Request → Frame
  | .burst b => { line := .wt, bytes := b }
  | .readByte => { line := .rq, bytes := [s.ptr] }
  | .edge => { line := .evTacho, bytes := [] }
  | .pass now => timeFrame s.cfg .lp now
  | .release => { line := .evRelease, bytes := [] }
  | .reset now => timeFrame s.cfg .rs now

/-- The decode word formed at a place inside a whole operation: WD from the byte and PTR (R63), CS from the
flags and the conditions (R66). -/
def State.innerFrame (s : State) : Inner → Frame
  | .dataByte d => { line := .wd, bytes := [d, s.ptr] }
  | .calStep => { line := .cs, bytes := s.csBytes }

end Sys2Proof.Machine
end

