-- ==== Sys2Proof/Machine/Enabled.lean ====
section
/-!
DEFINITION. When an operation is taken: the "selected by" column of spec/30_encoding.md R74, the table of R66,
and the sequencer's hold of R36, as conditions on the block's state. Where inside a whole operation an internal
one is performed (R67, R101, R113, R131, R140) is no condition on the state: the meanings of the whole
operations say it, and step takes nothing but whole operations (Fetch.lean; log entry 7). An operation that is not selected is not taken and changes nothing: the block
has no fault to answer with (R18; log entry 8).
-/

namespace Sys2Proof.Machine

open Sys2Proof

/-- The sequencer takes steps of its loop only outside the indicator hold (R36, R110). -/
def State.seqFree (s : State) : Bool := s.indPhase == .free

/-- The state selects the operation, where it is performed at all (R36, R66, R74). -/
def enabled (i : Instr) (s : State) : Bool :=
  match i with
  | .writeBurst _ => true
  | .wrPtr _ => true
  | .wrData _ => true
  | .wrReject _ => true
  | .wrStatus _ => s.ptr == 0x00#8
  | .wrSpeed _ => s.ptr == 0x01#8
  | .wrFloor _ => s.ptr == 0x02#8
  | .wrRps _ => s.ptr == 0x03#8
  | .wrRpmLo _ => s.ptr == 0x04#8
  | .wrRpmHi _ => s.ptr == 0x05#8
  | .wrNone p _ => s.ptr == p
  | .read => true
  | .tachoEdge => true
  | .drain => s.seqFree
  | .loopPass _ => s.seqFree
  | .measTick now => s.seqFree && elapsed s.cfg.timeW now s.deadline
  | .calIdle => s.seqFree && s.calState == .idle
  | .calStop => s.seqFree && s.calState == .stopRequested
  | .calToRamp => s.seqFree && s.calState == .stopping
  | .calSuccess => s.seqFree && s.calState == .ramping && s.rpmAbove
  | .calRamp => s.seqFree && s.calState == .ramping && !s.rpmAbove && !s.pwmFull
  | .calFail => s.seqFree && s.calState == .ramping && !s.rpmAbove && s.pwmFull
  | .applyLevel _ => !s.locked
  | .indAssert => s.seqFree && s.blinkReq
  | .indRelease => s.indPhase == .holding
  | .reset _ => true

/-- Take the operation `i`, whose effect is `f`, where it is selected; otherwise no step is taken. -/
def perform (i : Instr) (f : State → State) (s : State) : Host.Outcome State Fault Refusal :=
  .next (if enabled i s then f s else s)

end Sys2Proof.Machine
end

