-- ==== Sys2Proof/Machine/Driver.lean ====
section
/-!
DEFINITION. The speed driver: APPLY_LEVEL (spec/43_speed_driver.md R131). The remap itself, R130, is `level`.
-/

namespace Sys2Proof.Machine

open Sys2Proof

/-- `PWM_LEVEL <- v`; pwm_out follows in the same step (R131). -/
def applyLevel (v : Byte) (s : State) : State := { s with pwmLevel := v }

/-- APPLY_LEVEL (R131): performed only inside `wrSpeed` and `wrFloor`, and so only while not LOCKED. -/
def execApplyLevel (v : Byte) (s : State) : Host.Outcome State Fault Refusal :=
  perform (.applyLevel v) (applyLevel v) s

end Sys2Proof.Machine
end

