-- ==== Sys2Proof/Machine/Bus.lean ====
section
/-!
DEFINITION. The bus protocol operations (spec/40_bus_protocol.md R80 to R92).
-/

namespace Sys2Proof.Machine

open Sys2Proof

/-- `PTR <- P`, not range-checked (R81). -/
def wrPtr (p : Byte) (s : State) : State := { s with ptr := p }

/-- Status takes bit 0 only, and bit 0 arms the calibration; discarded while LOCKED (R83). -/
def wrStatus (d : Byte) (s : State) : State :=
  if s.locked then s
  else
    let t := s.setReg 0 (d &&& 0x01#8)
    if d.getLsbD 0 then { t with calArmed := true } else t

/-- SpeedCommand, and the level recomputed from it; discarded while LOCKED (R84). -/
def wrSpeed (d : Byte) (s : State) : State :=
  if s.locked then s
  else
    let t := s.setReg 1 d
    applyLevel (level d (t.reg 2)) t

/-- MinPwmFloor, and the level recomputed from it; discarded while LOCKED (R85). -/
def wrFloor (d : Byte) (s : State) : State :=
  if s.locked then s
  else
    let t := s.setReg 2 d
    applyLevel (level (t.reg 1) d) t

/-- TachoRPS, stored whether LOCKED or not (R86, C1, D4). -/
def wrRps (d : Byte) (s : State) : State := s.setReg 3 d

/-- TachoLowByte, stored whether LOCKED or not (R87). -/
def wrRpmLo (d : Byte) (s : State) : State := s.setReg 4 d

/-- TachoHighByte, stored whether LOCKED or not (R88). -/
def wrRpmHi (d : Byte) (s : State) : State := s.setReg 5 d

/-- A data byte at PTR >= 6 is discarded (R89, D3). -/
def wrNone (_d : Byte) (s : State) : State := s

/-- The cell operation PTR selects (R82). -/
def cellByte (d : Byte) (s : State) : State :=
  match s.ptr.toNat with
  | 0 => wrStatus d s
  | 1 => wrSpeed d s
  | 2 => wrFloor d s
  | 3 => wrRps d s
  | 4 => wrRpmLo d s
  | 5 => wrRpmHi d s
  | _ => wrNone d s

/-- `PTR <- adv(PTR)` (R48). -/
def advancePtr (s : State) : State := { s with ptr := adv s.ptr }

/-- One data byte: the selected operation, then the pointer's advance, also after a discarded byte (R82). -/
def wrData (d : Byte) (s : State) : State := advancePtr (cellByte d s)

/-- The data bytes of a transaction in bus order, each on the state the one before left (R80). -/
def wrDataAll : List Byte → State → State
  | [], s => s
  | d :: ds, s => wrDataAll ds (wrData d s)

/-- A rejected transaction: nothing (R90). -/
def wrReject (_b : List Byte) (s : State) : State := s

/-- `BLINK_REQ <- 1` (R92). -/
def requestBlink (s : State) : State := { s with blinkReq := true }

/-- A whole write transaction: the length check, the pointer byte, the data bytes, the blink request (R80). -/
def writeBurst (b : List Byte) (s : State) : State :=
  if b.length = 0 ∨ b.length > s.cfg.rxbufN then wrReject b s
  else
    match b with
    | [] => wrReject b s
    | p :: ds => requestBlink (wrDataAll ds (wrPtr p s))

/-- One read request: the byte at PTR is returned, then PTR advances (R91). -/
def readRequest (s : State) : State := advancePtr { s with readData := s.memRead s.ptr }

/-- WRITE_BURST (R80). -/
def execWriteBurst (b : List Byte) (s : State) : Host.Outcome State Fault Refusal :=
  perform (.writeBurst b) (writeBurst b) s

/-- WR_PTR (R81); BLINK_REQ is the whole transaction's (R92). -/
def execWrPtr (p : Byte) (s : State) : Host.Outcome State Fault Refusal :=
  perform (.wrPtr p) (wrPtr p) s

/-- WR_DATA (R82). -/
def execWrData (d : Byte) (s : State) : Host.Outcome State Fault Refusal :=
  perform (.wrData d) (wrData d) s

/-- WR_REJECT (R90). -/
def execWrReject (b : List Byte) (s : State) : Host.Outcome State Fault Refusal :=
  perform (.wrReject b) (wrReject b) s

/-- WR_STATUS, at PTR = 0 (R83); the pointer's advance is WR_DATA's (R82). -/
def execWrStatus (d : Byte) (s : State) : Host.Outcome State Fault Refusal :=
  perform (.wrStatus d) (wrStatus d) s

/-- WR_SPEED, at PTR = 1 (R84). -/
def execWrSpeed (d : Byte) (s : State) : Host.Outcome State Fault Refusal :=
  perform (.wrSpeed d) (wrSpeed d) s

/-- WR_FLOOR, at PTR = 2 (R85). -/
def execWrFloor (d : Byte) (s : State) : Host.Outcome State Fault Refusal :=
  perform (.wrFloor d) (wrFloor d) s

/-- WR_RPS, at PTR = 3 (R86). -/
def execWrRps (d : Byte) (s : State) : Host.Outcome State Fault Refusal :=
  perform (.wrRps d) (wrRps d) s

/-- WR_RPM_LO, at PTR = 4 (R87). -/
def execWrRpmLo (d : Byte) (s : State) : Host.Outcome State Fault Refusal :=
  perform (.wrRpmLo d) (wrRpmLo d) s

/-- WR_RPM_HI, at PTR = 5 (R88). -/
def execWrRpmHi (d : Byte) (s : State) : Host.Outcome State Fault Refusal :=
  perform (.wrRpmHi d) (wrRpmHi d) s

/-- WR_NONE, at PTR = p >= 6 (R89). -/
def execWrNone (p d : Byte) (s : State) : Host.Outcome State Fault Refusal :=
  perform (.wrNone p d) (wrNone d) s

/-- READ (R91), selected in every state (R93). -/
def execRead (s : State) : Host.Outcome State Fault Refusal := perform .read readRequest s

end Sys2Proof.Machine
end

