-- ==== Sys2Proof/Machine/Indicator.lean ====
section
/-!
DEFINITION. The indicator (spec/44_indicator.md R140, R141).
-/

namespace Sys2Proof.Machine

open Sys2Proof

/-- The blink begins; BLINK_REQ stays (R140). -/
def indAssert (s : State) : State := { s with indOut := true, indPhase := .holding }

/-- The blink ends and the request is cleared (R141). -/
def indRelease (s : State) : State := { s with indOut := false, blinkReq := false, indPhase := .free }

/-- IND_ASSERT (R140), only while BLINK_REQ = 1: performed only as the last action of `loopPass`. -/
def execIndAssert (s : State) : Host.Outcome State Fault Refusal := perform .indAssert indAssert s

/-- IND_RELEASE (R141), only inside the hold. -/
def execIndRelease (s : State) : Host.Outcome State Fault Refusal := perform .indRelease indRelease s

end Sys2Proof.Machine
end

