-- ==== Sys2Proof/Machine/Tacho.lean ====
section
/-!
DEFINITION. The tachometer accumulator (spec/41_tachometer.md R100, R101).
-/

namespace Sys2Proof.Machine

open Sys2Proof

/-- `TACHO_CNT <- trunc(TACHO_CNT + 1)` (R100). -/
def tachoEdge (s : State) : State := { s with tachoCnt := trunc s.cfg.tachoW (s.tachoCnt + 1) }

/-- `pulses <- TACHO_CNT; TACHO_CNT <- 0`, in one step (R101). -/
def drain (s : State) : State := { s with pulses := s.tachoCnt, tachoCnt := 0 }

/-- TACHO_EDGE (R100), selected in every state. -/
def execTachoEdge (s : State) : Host.Outcome State Fault Refusal := perform .tachoEdge tachoEdge s

/-- DRAIN (R101): the sequencer's, performed only as the first action of `measTick`. -/
def execDrain (s : State) : Host.Outcome State Fault Refusal := perform .drain drain s

end Sys2Proof.Machine
end

