-- ==== Sys2Proof/Machine/Control.lean ====
section
/-!
DEFINITION. The control sequencer: the calibration step, the measurement tick and the loop pass
(spec/42_control_loop.md R110 to R123).
-/

namespace Sys2Proof.Machine

open Sys2Proof

/-- Idle: nothing (R118). -/
def calIdle (s : State) : State := s

/-- StopRequested to Stopping: the fan is stopped and the calibration reported active (R119). -/
def calStop (s : State) : State := { s.setCalBit with pwmLevel := 0x00#8, calActive := true }

/-- Stopping to Ramping: the armed flag alone is cleared (R120). -/
def calToRamp (s : State) : State := { s with calArmed := false }

/-- `min(v + n, PWM_MAX)` as a byte (R121, R122). -/
def satAdd (v : Byte) (n : Nat) : Byte := trunc8 (min (v.toNat + n) pwmMax)

/-- Ramping to Idle: the floor is the winning level and the margin, saturating (R121, D16). -/
def calSuccess (s : State) : State :=
  { (s.setReg 2 (satAdd s.pwmLevel calMargin)).clearCalBit with pwmLevel := 0x00#8, calActive := false }

/-- One step up the ramp (R122). -/
def calRamp (s : State) : State := { s.setCalBit with pwmLevel := satAdd s.pwmLevel rampIncrement }

/-- Ramping to Idle at the saturated ramp; the floor is left as it was (R123, D15). -/
def calFail (s : State) : State := { s.clearCalBit with pwmLevel := 0x00#8, calActive := false }

/-- CAL_STEP(rpm), with the rpm of the drained window (R117). -/
def calStep (s : State) : State :=
  match s.calState with
  | .idle => calIdle s
  | .stopRequested => calStop s
  | .stopping => calToRamp s
  | .ramping =>
    if s.rpm > rpmThreshold then calSuccess s
    else if s.pwmLevel.toNat < pwmMax then calRamp s
    else calFail s

/-- The three telemetry cells from the drained window (R115), the RPM low byte first (R49). -/
def publish (s : State) : State :=
  ((s.setReg 3 (trunc8 (rpsOf s.cfg s.pulses))).setReg 4 (trunc8 s.rpm)).setReg 5 (trunc8 (s.rpm / 256))

/-- `DEADLINE <- trunc(now + PERIOD_MS)`, from the pass's own sample (R116, D14). -/
def rearm (now : Nat) (s : State) : State :=
  { s with deadline := trunc s.cfg.timeW (now + s.cfg.periodMs) }

/-- The five steps of a tick, in the source's order (R113). -/
def measTick (now : Nat) (s : State) : State := calStep (rearm now (publish (drain s)))

/-- One pass: the tick if the deadline is reached, then the indicator service (R110, D18). -/
def loopPass (now : Nat) (s : State) : State :=
  let t := if elapsed s.cfg.timeW now s.deadline then measTick now s else s
  if t.blinkReq then indAssert t else t

/-- LOOP_PASS (R110), enabled outside the indicator hold. -/
def execLoopPass (now : Nat) (s : State) : Host.Outcome State Fault Refusal :=
  perform (.loopPass now) (loopPass now) s

/-- MEAS_TICK (R113), where the comparator fires: performed only inside `loopPass`. -/
def execMeasTick (now : Nat) (s : State) : Host.Outcome State Fault Refusal :=
  perform (.measTick now) (measTick now) s

/-- CAL_IDLE (R118). -/
def execCalIdle (s : State) : Host.Outcome State Fault Refusal := perform .calIdle calIdle s

/-- CAL_STOP (R119). -/
def execCalStop (s : State) : Host.Outcome State Fault Refusal := perform .calStop calStop s

/-- CAL_TO_RAMP (R120). -/
def execCalToRamp (s : State) : Host.Outcome State Fault Refusal := perform .calToRamp calToRamp s

/-- CAL_SUCCESS (R121). -/
def execCalSuccess (s : State) : Host.Outcome State Fault Refusal := perform .calSuccess calSuccess s

/-- CAL_RAMP (R122). -/
def execCalRamp (s : State) : Host.Outcome State Fault Refusal := perform .calRamp calRamp s

/-- CAL_FAIL (R123). -/
def execCalFail (s : State) : Host.Outcome State Fault Refusal := perform .calFail calFail s

end Sys2Proof.Machine
end

