-- ==== Sys2Proof/Machine/Reset.lean ====
section
/-!
DEFINITION. RESET (spec/70_reset_and_hazards.md R170).
-/

namespace Sys2Proof.Machine

open Sys2Proof

/-- Every piece of state at the value of R40, for the time source at `now`; the parameters and the requests
of the agents outside stay (log entry 15). -/
def resetBlock (now : Nat) (s : State) : State :=
  { s with
    mem := { cells := [] }
    ptr := 0x00#8
    calArmed := true
    calActive := false
    pwmLevel := 0x00#8
    tachoCnt := 0
    deadline := trunc s.cfg.timeW (now + s.cfg.periodMs)
    blinkReq := false
    indOut := false
    indPhase := .free
    readData := 0x00#8
    pulses := 0 }

/-- RESET (R170). -/
def execReset (now : Nat) (s : State) : Host.Outcome State Fault Refusal :=
  perform (.reset now) (resetBlock now) s

end Sys2Proof.Machine
end

