-- ==== Sys2Proof/Machine/Dispatch.lean ====
section
/-!
DEFINITION. One arm per operation of the table.
-/

namespace Sys2Proof.Machine

open Sys2Proof

/-- The meaning of an operation. -/
def exec (i : Instr) (s : State) : Host.Outcome State Fault Refusal :=
  match i with
  | .writeBurst b => Sys2Proof.Machine.execWriteBurst b s
  | .wrPtr p => Sys2Proof.Machine.execWrPtr p s
  | .wrData d => Sys2Proof.Machine.execWrData d s
  | .wrReject b => Sys2Proof.Machine.execWrReject b s
  | .wrStatus d => Sys2Proof.Machine.execWrStatus d s
  | .wrSpeed d => Sys2Proof.Machine.execWrSpeed d s
  | .wrFloor d => Sys2Proof.Machine.execWrFloor d s
  | .wrRps d => Sys2Proof.Machine.execWrRps d s
  | .wrRpmLo d => Sys2Proof.Machine.execWrRpmLo d s
  | .wrRpmHi d => Sys2Proof.Machine.execWrRpmHi d s
  | .wrNone p d => Sys2Proof.Machine.execWrNone p d s
  | .read => Sys2Proof.Machine.execRead s
  | .tachoEdge => Sys2Proof.Machine.execTachoEdge s
  | .drain => Sys2Proof.Machine.execDrain s
  | .loopPass now => Sys2Proof.Machine.execLoopPass now s
  | .measTick now => Sys2Proof.Machine.execMeasTick now s
  | .calIdle => Sys2Proof.Machine.execCalIdle s
  | .calStop => Sys2Proof.Machine.execCalStop s
  | .calToRamp => Sys2Proof.Machine.execCalToRamp s
  | .calSuccess => Sys2Proof.Machine.execCalSuccess s
  | .calRamp => Sys2Proof.Machine.execCalRamp s
  | .calFail => Sys2Proof.Machine.execCalFail s
  | .applyLevel v => Sys2Proof.Machine.execApplyLevel v s
  | .indAssert => Sys2Proof.Machine.execIndAssert s
  | .indRelease => Sys2Proof.Machine.execIndRelease s
  | .reset now => Sys2Proof.Machine.execReset now s

end Sys2Proof.Machine
end

