-- ==== Sys2Proof/Machine/Fetch.lean ====
section
/-!
DEFINITION. Fetching: the decode word of the next step, and where a word of spec/opcode_table.json has to
stand to be fetched next (log entries 6, 7 and 20).
-/

namespace Sys2Proof.Machine

open Sys2Proof

/-- The request taken off the list: what a whole operation runs on. -/
def State.dropRequest (s : State) (rest : List Request) : State := { s with pending := rest }

/-- A request put before the others, to be served next. -/
def State.place (s : State) (r : Request) : State := { s with inner := none, pending := r :: s.pending }

/-- The next step begins at a place inside a whole operation. -/
def State.enter (s : State) (q : Inner) : State := { s with inner := some q }

/-- The place left: what the operation decided there runs on. -/
def State.leave (s : State) : State := { s with inner := none }

/-- The decode word of the next step, with the state its operation runs on (R62 to R67): the first request's,
or the one of the place the step begins at; none where no agent asks for anything. -/
def fetch (s : State) : Option (Frame × State) :=
  match s.inner with
  | some q => some (s.innerFrame q, s.leave)
  | none =>
    match s.pending with
    | [] => none
    | r :: rest => some (s.frameOf r, s.dropRequest rest)

/-- The state a CS word is formed from: the two flags, outside the hold; for a Ramping word also the two
conditions at 0, which are bits above the table's (R66, log entry 10). -/
def State.forCs (s : State) (active armed : Bool) : State :=
  let t := { s with calActive := active, calArmed := armed, indPhase := .free }
  if active && !armed then
    { t with pulses := 0, pwmLevel := if s.pwmFull then 0x00#8 else s.pwmLevel }
  else t

/-- A table word placed to be fetched next. Bits the block takes from its own state into the word (PTR of WD
and RQ, the flags of CS) are set in the state; the width chooses the line as in `tableFrame`. -/
def State.placeWord (s : State) (nbits w : Nat) : State :=
  let w := w % 2 ^ nbits
  match nbits with
  | 0 => s.place .edge
  | 2 => (s.forCs (w.testBit 1) (w.testBit 0)).enter .calStep
  | 8 =>
    if w < 4 then (s.forCs (w.testBit 1) (w.testBit 0)).enter .calStep
    else { s with ptr := trunc8 w }.place .readByte
  | 16 => { s with ptr := trunc8 (w / 256) }.enter (.dataByte (trunc8 w))
  | 32 => { s with indPhase := .free }.place (.pass w)
  | n => s.place (.burst (toBytes ((n + 7) / 8) w))

end Sys2Proof.Machine
end

