-- ==== Sys2Proof/Machine/Step.lean ====
section
/-!
DEFINITION. One step of the block: the next request of the total order of R53 is served whole, as one atomic
step (R52). With no request placed no agent takes a step, and the state stays (log entry 6).
-/

namespace Sys2Proof.Machine

open Sys2Proof

/-- One step (R52, R53): the word fetched is decoded, and its operation taken. -/
def step (s : State) : Host.Outcome State Fault Refusal :=
  match fetch s with
  | none => .next s
  | some (f, t) =>
    match decode t.cfg f with
    | .ok i => exec i t
    | .error e => .refused (.undecodable e)

/-- The state in which the next step fetches and runs the table word `w` of `nbits` bits (log entry 20). -/
def State.withFetchWord (s : State) (nbits w : Nat) : State := s.placeWord nbits w

end Sys2Proof.Machine
end

