-- ==== Sys2Proof/Safety.lean ====
section
/-!
DEFINITION. What counts as a safe run of the block, in the terms statements use: who takes which step
(spec/00_scope.md R17, spec/30_encoding.md R74), which operations are steps of their own (R52, R67), the
invariants of spec/10_state.md R41 to R44, runs of steps, and the premise R172 (c) of
spec/70_reset_and_hazards.md on a schedule written as data. R172 (d), "whole transactions", is in the type of
a request.
-/

namespace Sys2Proof

/-- The four agents (R17). -/
inductive Agent
  /-- The I2C transport, for the bus master. -/
  | bus
  /-- The tachometer edge source. -/
  | tacho
  /-- The cooperative control sequencer. -/
  | seq
  /-- The environment: time and reset. -/
  | env
deriving DecidableEq, Repr

/-- The agent that performs an operation: R74, column "agent". -/
def Instr.agent : Instr → Agent
  | .writeBurst _ => .bus
  | .wrPtr _ => .bus
  | .wrData _ => .bus
  | .wrReject _ => .bus
  | .wrStatus _ => .bus
  | .wrSpeed _ => .bus
  | .wrFloor _ => .bus
  | .wrRps _ => .bus
  | .wrRpmLo _ => .bus
  | .wrRpmHi _ => .bus
  | .wrNone _ _ => .bus
  | .read => .bus
  | .tachoEdge => .tacho
  | .drain => .seq
  | .loopPass _ => .seq
  | .measTick _ => .seq
  | .calIdle => .seq
  | .calStop => .seq
  | .calToRamp => .seq
  | .calSuccess => .seq
  | .calRamp => .seq
  | .calFail => .seq
  | .applyLevel _ => .bus
  | .indAssert => .seq
  | .indRelease => .seq
  | .reset _ => .env

/-- The operations of their own: the atomic steps of R52 that the agents ask for, WR_REJECT among them as the
transaction it rejects (R60, R64). IND_ASSERT, which R52 lists too, is performed only as the last action of a
LOOP_PASS (R67, R140), and every other operation only inside one of these (R64, R67). -/
def Instr.whole : Instr → Bool
  | .writeBurst _ => true
  | .wrPtr _ => false
  | .wrData _ => false
  | .wrReject _ => true
  | .wrStatus _ => false
  | .wrSpeed _ => false
  | .wrFloor _ => false
  | .wrRps _ => false
  | .wrRpmLo _ => false
  | .wrRpmHi _ => false
  | .wrNone _ _ => false
  | .read => true
  | .tachoEdge => true
  | .drain => false
  | .loopPass _ => true
  | .measTick _ => false
  | .calIdle => false
  | .calStop => false
  | .calToRamp => false
  | .calSuccess => false
  | .calRamp => false
  | .calFail => false
  | .applyLevel _ => false
  | .indAssert => false
  | .indRelease => true
  | .reset _ => true

/-- The operations that move PTR by one byte: a data byte of a burst and a read request (R96). -/
def Instr.isByteOp : Instr → Bool
  | .wrData _ => true
  | .read => true
  | _ => false

end Sys2Proof

namespace Sys2Proof.Machine

open Sys2Proof

/-- Operations taken one after the other, stopping at the first that has no next state. -/
def runOps : List Instr → State → Host.Outcome State Fault Refusal
  | [], s => .next s
  | i :: is, s =>
    match exec i s with
    | .next t => runOps is t
    | .fault e => .fault e
    | .refused e => .refused e

/-- A pass at `now` performs a measurement tick (R110). -/
def tickDue (now : Nat) (s : State) : Bool := s.seqFree && elapsed s.cfg.timeW now s.deadline

/-- A request, other than RESET, whose step neither counts an edge nor performs a tick in the state. -/
def quiet (r : Request) (s : State) : Bool :=
  match r with
  | .burst _ => true
  | .readByte => true
  | .edge => false
  | .pass now => !tickDue now s
  | .release => true
  | .reset _ => false

/-- `Run P s ticks edges t`: steps that serve requests other than RESET lead from `s` to `t`, with so many
measurement ticks and so many tachometer edges among them, through states that all satisfy `P` (R53). -/
inductive Run (P : State → Prop) (s : State) : Nat → Nat → State → Prop
  /-- No step. -/
  | start : P s → Run P s 0 0 s
  /-- One more edge. -/
  | edge {k n : Nat} {t u : State} {rest : List Request} :
      Run P s k n t → t.pending = .edge :: rest → step t = .next u → P u → Run P s k (n + 1) u
  /-- One more tick. -/
  | tick {k n : Nat} {t u : State} {now : Nat} {rest : List Request} :
      Run P s k n t → t.pending = .pass now :: rest → tickDue now t = true → step t = .next u → P u →
      Run P s (k + 1) n u
  /-- Any other request. -/
  | other {k n : Nat} {t u : State} {r : Request} {rest : List Request} :
      Run P s k n t → t.pending = r :: rest → quiet r t = true → step t = .next u → P u → Run P s k n u

/-- What every reachable state satisfies (R32, R33, R41 to R44, R142). -/
structure State.Inv (s : State) : Prop where
  /-- The register file is in its canonical form. -/
  memory : s.mem.wf = true
  /-- Status bits 7:1 are 0 (R41). -/
  status : s.reg 0 &&& 0xFE#8 = 0x00#8
  /-- In Idle, Status is 0x00 (R42). -/
  idle : s.calState = .idle → s.reg 0 = 0x00#8
  /-- In Stopping and Ramping, Status is 0x01 (R43). -/
  active : s.calActive = true → s.reg 0 = 0x01#8
  /-- In Stopping, the PWM level is 0 (R44). -/
  stopping : s.calState = .stopping → s.pwmLevel = 0x00#8
  /-- In Ramping, the PWM level is a multiple of 5 (R44). -/
  ramping : s.calState = .ramping → s.pwmLevel.toNat % 5 = 0
  /-- TACHO_CNT has TACHO_W bits (R32). -/
  tachoWidth : s.tachoCnt < 2 ^ s.cfg.tachoW
  /-- A drained window has TACHO_W bits (R101). -/
  pulsesWidth : s.pulses < 2 ^ s.cfg.tachoW
  /-- DEADLINE has TIME_W bits (R33). -/
  deadlineWidth : s.deadline < 2 ^ s.cfg.timeW
  /-- ind_out is 1 exactly while the sequencer is Holding (R142). -/
  indicator : s.indOut = true ↔ s.indPhase = .holding
  /-- A held blink has its request still set (R140, R141). -/
  holdRequest : s.indPhase = .holding → s.blinkReq = true

/-- The premise R172 (c) on the time samples of successive passes: each is less than
`2^(TIME_W-1) - PERIOD_MS` after the one before, modulo the wrap of R172 (a). -/
def samplesClose (c : Config) : Nat → List Nat → Bool
  | _, [] => true
  | last, now :: rest =>
    decide (truncInt c.timeW ((now : Int) - (last : Int)) < 2 ^ (c.timeW - 1) - c.periodMs) &&
      samplesClose c now rest

end Sys2Proof.Machine
end

