-- ==== Sys2Proof/Certificates/Slice0/Obligations.lean ====
section
/-!
DEFINITION. The statements for the provers, each about the block and cited to the rules of spec/ it
formalises. A frame is said as an equation: in `t = (s with mem := t.mem, ptr := p)` every field but the ones
named is the field of `s`; for a field that names `t` itself, the other clauses say what `t` holds there.
-/

open Sys2Proof Sys2Proof.Machine

/-! ## Bus protocol operations -/

/-- R81. The pointer byte loads PTR with no range check, and changes nothing else. -/
def Obligations.WrPtrLoadsPointer : Prop :=
  ∀ (p : Byte) (s : State), exec (.wrPtr p) s = .next { s with ptr := p }

/-- R82, R63. A data byte runs the one operation its WD word (PTR, D) selects, and PTR then advances. -/
def Obligations.WrDataRunsSelectedThenAdvances : Prop :=
  ∀ (d : Byte) (s : State), ∃ (i : Instr) (t : State),
    decode s.cfg { line := .wd, bytes := [d, s.ptr] } = .ok i ∧
    i = (if s.ptr = 0x00#8 then .wrStatus d
      else if s.ptr = 0x01#8 then .wrSpeed d
      else if s.ptr = 0x02#8 then .wrFloor d
      else if s.ptr = 0x03#8 then .wrRps d
      else if s.ptr = 0x04#8 then .wrRpmLo d
      else if s.ptr = 0x05#8 then .wrRpmHi d
      else .wrNone s.ptr d) ∧
    exec i s = .next t ∧
    exec (.wrData d) s =
      .next { t with ptr := if s.ptr.toNat + 1 ≥ 6 then 0x00#8 else s.ptr + 0x01#8 }

/-- R83. At PTR = 0: while LOCKED the byte is discarded; otherwise Status becomes bit 0 of the byte, and a
set bit 0 arms the calibration. Nothing else changes. -/
def Obligations.WrStatusStoresBitZeroAndArms : Prop :=
  ∀ (d : Byte) (s : State), s.ptr = 0x00#8 →
    ((s.calActive = true ∨ s.calArmed = true) → exec (.wrStatus d) s = .next s) ∧
    (s.calActive = false ∧ s.calArmed = false →
      ∃ t, exec (.wrStatus d) s = .next t ∧
        t = { s with mem := t.mem, calArmed := d.getLsbD 0 } ∧
        t.mem.read 0 = (if d.getLsbD 0 then 0x01#8 else 0x00#8) ∧
        ∀ a, a ≠ 0 → t.mem.read a = s.mem.read a)

/-- R84. At PTR = 1: while LOCKED the byte is discarded; otherwise SpeedCommand becomes the byte and PWM_LEVEL
the remap of the byte over the present floor. Nothing else changes. -/
def Obligations.WrSpeedStoresAndRecomputes : Prop :=
  ∀ (d : Byte) (s : State), s.ptr = 0x01#8 →
    ((s.calActive = true ∨ s.calArmed = true) → exec (.wrSpeed d) s = .next s) ∧
    (s.calActive = false ∧ s.calArmed = false →
      ∃ t, exec (.wrSpeed d) s = .next t ∧
        t = { s with mem := t.mem, pwmLevel := level d (s.mem.read 2) } ∧
        t.mem.read 1 = d ∧
        ∀ a, a ≠ 1 → t.mem.read a = s.mem.read a)

/-- R85. At PTR = 2: while LOCKED the byte is discarded; otherwise MinPwmFloor becomes the byte and PWM_LEVEL
the remap of the existing SpeedCommand over it. Nothing else changes. -/
def Obligations.WrFloorStoresAndRecomputes : Prop :=
  ∀ (d : Byte) (s : State), s.ptr = 0x02#8 →
    ((s.calActive = true ∨ s.calArmed = true) → exec (.wrFloor d) s = .next s) ∧
    (s.calActive = false ∧ s.calArmed = false →
      ∃ t, exec (.wrFloor d) s = .next t ∧
        t = { s with mem := t.mem, pwmLevel := level (s.mem.read 1) d } ∧
        t.mem.read 2 = d ∧
        ∀ a, a ≠ 2 → t.mem.read a = s.mem.read a)

/-- R86, R87, R88. The telemetry cells store a master's byte, whether LOCKED or not; nothing else changes. -/
def Obligations.TelemetryWritesAreStored : Prop :=
  ∀ (d : Byte) (s : State) (i : Instr) (a : Nat),
    (i = .wrRps d ∧ s.ptr = 0x03#8 ∧ a = 3) ∨ (i = .wrRpmLo d ∧ s.ptr = 0x04#8 ∧ a = 4) ∨
      (i = .wrRpmHi d ∧ s.ptr = 0x05#8 ∧ a = 5) →
    ∃ t, exec i s = .next t ∧ t = { s with mem := t.mem } ∧ t.mem.read a = d ∧
      ∀ b, b ≠ a → t.mem.read b = s.mem.read b

/-- R89, R90. A byte at PTR >= 6 and a rejected transaction change nothing at all, the pointer and the blink
request included. -/
def Obligations.DiscardedAndRejectedChangeNothing : Prop :=
  (∀ (p d : Byte) (s : State), exec (.wrNone p d) s = .next s) ∧
  (∀ (b : List Byte) (s : State), exec (.wrReject b) s = .next s) ∧
  (∀ (b : List Byte) (s : State), b.length = 0 ∨ s.cfg.rxbufN < b.length →
    decode s.cfg { line := .wt, bytes := b } = .ok (.wrReject b) ∧ exec (.writeBurst b) s = .next s)

/-- R80, R92. An accepted transaction is its pointer byte, then its data bytes in bus order, then the blink
request. -/
def Obligations.WriteBurstIsPointerDataBlink : Prop :=
  ∀ (p : Byte) (ds : List Byte) (s : State), ds.length + 1 ≤ s.cfg.rxbufN →
    ∃ t, runOps (.wrPtr p :: ds.map .wrData) s = .next t ∧
      exec (.writeBurst (p :: ds)) s = .next { t with blinkReq := true }

/-- R91, R46, R48. A read request returns the cell at PTR, or 0x00 at PTR >= 6, advances PTR and changes
nothing else. -/
def Obligations.ReadReturnsCellAndAdvances : Prop :=
  ∀ s : State, exec .read s = .next { s with
    readData := if s.ptr.toNat < 6 then s.mem.read s.ptr.toNat else 0x00#8,
    ptr := if s.ptr.toNat + 1 ≥ 6 then 0x00#8 else s.ptr + 0x01#8 }

/-- R46. A pointer byte of 6 or more is stored unchanged; a read there returns 0x00 and a data byte is
discarded, and either takes PTR to 0; no cell changes. -/
def Obligations.OutOfRangePointerPolicy : Prop :=
  ∀ (p d : Byte) (s : State), 6 ≤ p.toNat →
    ∃ t, exec (.wrPtr p) s = .next t ∧ t = { s with ptr := p } ∧
      exec .read t = .next { s with ptr := 0x00#8, readData := 0x00#8 } ∧
      exec (.wrData d) t = .next { s with ptr := 0x00#8 }

/-- R96, R48. A run of data bytes and read requests moves PTR around the six cells; from a pointer of 6 or
more the first byte takes it to 0. -/
def Obligations.PointerWrapsModuloSix : Prop :=
  ∀ (ops : List Instr) (s : State), (∀ i ∈ ops, i.isByteOp = true) →
    ∃ t, runOps ops s = .next t ∧
      (s.ptr.toNat < 6 → t.ptr.toNat = (s.ptr.toNat + ops.length) % 6) ∧
      (s.ptr.toNat < 6 → ops.length = 6 → t.ptr = s.ptr) ∧
      (6 ≤ s.ptr.toNat → 1 ≤ ops.length → t.ptr.toNat = (ops.length - 1) % 6)

/-- R95. While LOCKED, no bus operation, whole or by the byte, changes Status, SpeedCommand, MinPwmFloor, the
calibration flags or the PWM level; a burst still moves PTR, asks for a blink and stores telemetry. -/
def Obligations.LockoutProtectsRegistersAndLevel : Prop :=
  (∀ (i : Instr) (s t : State), s.locked = true → i.agent = .bus → exec i s = .next t →
    t.mem.read 0 = s.mem.read 0 ∧ t.mem.read 1 = s.mem.read 1 ∧ t.mem.read 2 = s.mem.read 2 ∧
    t.calArmed = s.calArmed ∧ t.calActive = s.calActive ∧ t.pwmLevel = s.pwmLevel) ∧
  (∀ (d : Byte) (s : State), s.locked = true → 2 ≤ s.cfg.rxbufN →
    ∃ t, exec (.writeBurst [0x03#8, d]) s = .next t ∧
      t = { s with mem := t.mem, ptr := 0x04#8, blinkReq := true } ∧ t.mem.read 3 = d)

/-- R133, R84, R85. A burst that writes SpeedCommand and then MinPwmFloor leaves both stored and the level the
second recompute gives. -/
def Obligations.SpeedThenFloorBurstRecomputesLast : Prop :=
  ∀ (v f : Byte) (s : State), s.locked = false → 3 ≤ s.cfg.rxbufN →
    ∃ t, exec (.writeBurst [0x01#8, v, f]) s = .next t ∧
      t = { s with mem := t.mem, ptr := 0x03#8, pwmLevel := level v f, blinkReq := true } ∧
      t.mem.read 1 = v ∧ t.mem.read 2 = f ∧ ∀ a, a ≠ 1 → a ≠ 2 → t.mem.read a = s.mem.read a

/-- R93. A write transaction or a read request that comes next is served in one step in every state of a run
(one that begins no step inside another, log entry 7), inside the indicator hold too: a burst moves PTR and asks
for a blink unless it is rejected, a read returns a byte. -/
def Obligations.BusRequestsNeverWait : Prop :=
  ∀ (s : State) (rest : List Request), s.inner = none →
    (∀ b, s.pending = .burst b :: rest →
      ∃ t, step s = .next t ∧ t.pending = rest ∧ t.indPhase = s.indPhase ∧
        ((1 ≤ b.length ∧ b.length ≤ s.cfg.rxbufN) → t.blinkReq = true ∧
          runOps (.wrPtr (b.headD 0x00#8) :: b.tail.map .wrData) { s with pending := rest } =
            .next { t with blinkReq := s.blinkReq }) ∧
        (¬ (1 ≤ b.length ∧ b.length ≤ s.cfg.rxbufN) → t = { s with pending := rest })) ∧
    (s.pending = .readByte :: rest →
      ∃ t, step s = .next t ∧ t.pending = rest ∧ t.indPhase = s.indPhase ∧
        t.readData = (if s.ptr.toNat < 6 then s.mem.read s.ptr.toNat else 0x00#8))

/-! ## Speed driver -/

/-- R130. The remap as a number: 0 for a speed of 0, and otherwise the floor and the proportional part of
what is above it, truncated; the value fits 8 bits without truncation. -/
def Obligations.LevelIsTruncatedLinearRemap : Prop :=
  ∀ v f : Byte, (level v f).toNat =
    if v.toNat = 0 then 0 else f.toNat + v.toNat * (255 - f.toNat) / 255

/-- R132. The four properties of the remap. -/
def Obligations.LevelPropertiesOfTheRemap : Prop :=
  (∀ f v w : Byte, v.toNat ≤ w.toNat → (level v f).toNat ≤ (level w f).toNat) ∧
  (∀ f : Byte, level 0x00#8 f = 0x00#8) ∧
  (∀ f : Byte, level 0xFF#8 f = 0xFF#8) ∧
  (∀ v f : Byte, 1 ≤ v.toNat → f.toNat ≤ (level v f).toNat)

/-- R131. The remap's result becomes PWM_LEVEL, and so the output port, and changes nothing else; the writes
that perform it are discarded in the lockout, where it is not taken (the model's reading, log entry 8). -/
def Obligations.ApplyLevelDrivesOutput : Prop :=
  ∀ (v : Byte) (s : State),
    (s.locked = false → ∃ t, exec (.applyLevel v) s = .next t ∧ t = { s with pwmLevel := v } ∧ t.pwmOut = v) ∧
    (s.locked = true → exec (.applyLevel v) s = .next s)

/-- R31, R58, R131. In every step of a run PWM_LEVEL stays, or a write transaction outside the lockout moves
it to the remap of the two cells as some data byte of it left them, or a tick of a calibration or RESET moves
it. -/
def Obligations.LevelMovesOnlyByWriteTickAndReset : Prop :=
  ∀ s t : State, s.inner = none → step s = .next t → t.pwmLevel ≠ s.pwmLevel →
    ∃ rest,
      (∃ p ds, s.pending = .burst (p :: ds) :: rest ∧ s.locked = false ∧
        ∃ as bs u, ds = as ++ bs ∧ as ≠ [] ∧
          runOps (.wrPtr p :: as.map .wrData) { s with pending := rest } = .next u ∧
          t.pwmLevel = level (u.mem.read 1) (u.mem.read 2)) ∨
      (∃ now, s.pending = .pass now :: rest ∧ tickDue now s = true ∧ s.locked = true) ∨
      (∃ r, s.pending = .reset r :: rest)

/-! ## Tachometer -/

/-- R100. An edge adds one to the counter modulo 2^TACHO_W and does nothing else, in every state. -/
def Obligations.TachoEdgeCountsOne : Prop :=
  ∀ s : State, exec .tachoEdge s = .next { s with tachoCnt := (s.tachoCnt + 1) % 2 ^ s.cfg.tachoW }

/-- R101. The drain returns the counter and clears it, in one step. -/
def Obligations.DrainReturnsAndClears : Prop :=
  ∀ s : State, s.indPhase = .free →
    exec .drain s = .next { s with pulses := s.tachoCnt, tachoCnt := 0 }

/-- R102. From a step that is a measurement tick, or RESET, any steps with `n` edges and no tick and no RESET
among them, whatever is asked for in between, lead to a tick that drains exactly `n` pulses, modulo
2^TACHO_W. -/
def Obligations.WindowCountsEveryEdgeOnce : Prop :=
  ∀ (s0 s u : State) (n : Nat), s0.inner = none →
    ((∃ now rest, s0.pending = .pass now :: rest ∧ tickDue now s0 = true) ∨
      (∃ r rest, s0.pending = .reset r :: rest)) →
    step s0 = .next s →
    Run (fun _ => True) s 0 n u →
    ∀ now rest, u.pending = .pass now :: rest → tickDue now u = true →
      ∃ v, step u = .next v ∧ v.pulses = n % 2 ^ s.cfg.tachoW ∧ v.tachoCnt = 0

/-- R101, R103, R58. In every step from any state the counter stays, or an edge adds one, or the tick of a pass
hands the whole window over and clears it, or RESET clears it. -/
def Obligations.CounterMovesOnlyByEdgeTickAndReset : Prop :=
  ∀ s t : State, step s = .next t →
    (t.tachoCnt = s.tachoCnt ∧ t.pulses = s.pulses) ∨
    (s.inner = none ∧ ∃ rest,
      (s.pending = .edge :: rest ∧ t.tachoCnt = (s.tachoCnt + 1) % 2 ^ s.cfg.tachoW ∧ t.pulses = s.pulses) ∨
      (∃ now, s.pending = .pass now :: rest ∧ tickDue now s = true ∧
        t.tachoCnt = 0 ∧ t.pulses = s.tachoCnt) ∨
      (∃ r, s.pending = .reset r :: rest ∧ t.tachoCnt = 0))

/-! ## Comparator, measurement and the loop -/

/-- R111. The comparator is the sign of the wrapping difference, read as a two's complement number of the
time source's width. -/
def Obligations.ElapsedIsSignedWrappingDifference : Prop :=
  ∀ w now dl : Nat, elapsed w now dl = decide (0 ≤ (BitVec.ofNat w now - BitVec.ofNat w dl).toInt)

/-- R112. For the real times `t` and `d` of a sample and of a deadline, `e = t - d`: the comparator answers
`e mod 2^W < 2^(W-1)`, so it is right for `-2^(W-1) <= e < 2^(W-1)`, misses a deadline from half the range to
the full wrap, and never fires early by at most a period. -/
def Obligations.ComparatorRightWithinHalfRange : Prop :=
  ∀ (w : Nat) (t d : Int), 1 ≤ w →
    (elapsed w (truncInt w t) (truncInt w d) = true ↔
      (t - d) % ((2 ^ w : Nat) : Int) < ((2 ^ (w - 1) : Nat) : Int)) ∧
    (-((2 ^ (w - 1) : Nat) : Int) ≤ t - d → t - d < ((2 ^ (w - 1) : Nat) : Int) →
      (elapsed w (truncInt w t) (truncInt w d) = true ↔ 0 ≤ t - d)) ∧
    (((2 ^ (w - 1) : Nat) : Int) ≤ t - d → t - d < ((2 ^ w : Nat) : Int) →
      elapsed w (truncInt w t) (truncInt w d) = false) ∧
    (∀ period : Nat, period < 2 ^ (w - 1) → -(period : Int) ≤ t - d → t - d < 0 →
      elapsed w (truncInt w t) (truncInt w d) = false)

/-- R110. A pass outside the hold is the measurement tick if the comparator fires, and then the blink if one
is requested; a pass with neither changes nothing. -/
def Obligations.LoopPassIsTickThenBlink : Prop :=
  ∀ (now : Nat) (s : State), s.indPhase = .free →
    ∃ u t, exec (.loopPass now) s = .next t ∧
      (elapsed s.cfg.timeW now s.deadline = true → exec (.measTick now) s = .next u) ∧
      (elapsed s.cfg.timeW now s.deadline = false → u = s) ∧
      (s.blinkReq = true → exec .indAssert u = .next t ∧ t.indOut = true ∧ t.indPhase = .holding) ∧
      (s.blinkReq = false → t = u)

/-- R36, R110, R141. Inside the hold the sequencer takes no step but IND_RELEASE; that another step asked for
there leaves the state as it is, is the model's choice (log entry 8). -/
def Obligations.HoldBlocksTheSequencer : Prop :=
  ∀ (i : Instr) (s : State), s.indPhase = .holding → i.agent = .seq →
    exec i s = .next (if i = .indRelease then { s with indOut := false, blinkReq := false, indPhase := .free }
      else s)

/-- R113, R114, R115, R116. A tick drains the window, publishes the truncated RPS and the RPM computed from
the raw pulses, sets the next deadline from its own sample, and then runs the one calibration operation the
CS word of that state selects. -/
def Obligations.MeasTickDrainsPublishesRearmsThenCalibrates : Prop :=
  ∀ (now : Nat) (s : State), s.indPhase = .free → elapsed s.cfg.timeW now s.deadline = true →
    ∃ u i t,
      u = { s with
        mem := u.mem, pulses := s.tachoCnt, tachoCnt := 0,
        deadline := (now + 1000 * s.cfg.periodS) % 2 ^ s.cfg.timeW } ∧
      u.mem.read 3 = BitVec.ofNat 8 (s.tachoCnt / s.cfg.periodS) ∧
      u.mem.read 4 = BitVec.ofNat 8 (s.tachoCnt * 60 / s.cfg.periodS) ∧
      u.mem.read 5 = BitVec.ofNat 8 (s.tachoCnt * 60 / s.cfg.periodS / 256) ∧
      (∀ a, a ≠ 3 → a ≠ 4 → a ≠ 5 → u.mem.read a = s.mem.read a) ∧
      decode u.cfg (u.innerFrame .calStep) = .ok i ∧ exec i u = .next t ∧
      exec (.measTick now) s = .next t

/-- R49, R115. After a tick, REG[4] is the low and REG[5] the high byte of the rpm modulo 2^16, whatever the
calibration step did. -/
def Obligations.PublishedRpmIsLittleEndian : Prop :=
  ∀ (now : Nat) (s : State), tickDue now s = true →
    ∃ t, exec (.loopPass now) s = .next t ∧
      (t.mem.read 4).toNat + 256 * (t.mem.read 5).toNat = (s.tachoCnt * 60 / s.cfg.periodS) % 65536 ∧
      (t.mem.read 3).toNat = (s.tachoCnt / s.cfg.periodS) % 256

/-- R116, R112 (c). After a tick at the time `t0`, a pass at `t0 + e` is a tick exactly from `e = PERIOD_MS`
on, as long as it comes before half the range is over: ticks are at least PERIOD_MS apart, counted from the
pass and not from the old deadline. -/
def Obligations.NextTickIsOnePeriodAfterThePass : Prop :=
  ∀ (t0 e : Nat) (s : State), s.cfg.wf → tickDue t0 s = true → s.blinkReq = false →
    e < 2 ^ (s.cfg.timeW - 1) + s.cfg.periodMs →
    ∃ t, exec (.loopPass t0) s = .next t ∧
      (tickDue (trunc s.cfg.timeW (t0 + e)) t = true ↔ s.cfg.periodMs ≤ e)

/-- R181, R87. The telemetry cells influence nothing but reads of themselves: a pass of two states that
differ in one telemetry cell leads to states that differ at most in that cell. -/
def Obligations.TelemetryCellsInfluenceNoPass : Prop :=
  ∀ (now a : Nat) (v : Byte) (s t : State), a = 3 ∨ a = 4 ∨ a = 5 →
    exec (.loopPass now) s = .next t →
    ∃ t', exec (.loopPass now) (s.setReg a v) = .next t' ∧ t' = { t with mem := t'.mem } ∧
      ∀ b, b ≠ a → t'.mem.read b = t.mem.read b

/-! ## Calibration -/

/-- R66, R117, R75. In every state the CS word selects exactly one calibration operation, the one of the
table, and outside the hold that operation is the one that is taken. -/
def Obligations.CsWordSelectsOneCalibrationStep : Prop :=
  ∀ s : State, ∃ i, decode s.cfg (s.innerFrame .calStep) = .ok i ∧
    i = (if s.calActive = false ∧ s.calArmed = false then .calIdle
      else if s.calActive = false ∧ s.calArmed = true then .calStop
      else if s.calActive = true ∧ s.calArmed = true then .calToRamp
      else if s.pulses * 60 / s.cfg.periodS > 200 then .calSuccess
      else if s.pwmLevel.toNat < 255 then .calRamp
      else .calFail) ∧
    (s.indPhase = .free → ∀ j ∈ [Instr.calIdle, .calStop, .calToRamp, .calSuccess, .calRamp, .calFail],
      (enabled j s = true ↔ j = i))

/-- R118. In Idle the calibration step changes nothing. -/
def Obligations.CalIdleChangesNothing : Prop :=
  ∀ s : State, exec .calIdle s = .next s

/-- R119. StopRequested to Stopping: the level is 0, Status bit 0 is set and CAL_ACTIVE is set; nothing else
changes, SpeedCommand included. -/
def Obligations.CalStopStopsTheFan : Prop :=
  ∀ s : State, s.indPhase = .free → s.calActive = false → s.calArmed = true →
    ∃ t, exec .calStop s = .next t ∧
      t = { s with mem := t.mem, pwmLevel := 0x00#8, calActive := true } ∧
      t.mem.read 0 = (s.mem.read 0 ||| 0x01#8) ∧ ∀ a, a ≠ 0 → t.mem.read a = s.mem.read a

/-- R120. Stopping to Ramping: CAL_ARMED alone is cleared, whatever the rpm. -/
def Obligations.CalToRampClearsArmedOnly : Prop :=
  ∀ s : State, s.indPhase = .free → s.calActive = true → s.calArmed = true →
    exec .calToRamp s = .next { s with calArmed := false }

/-- R121. Ramping with rpm > 200: the floor is the level and 5, saturating at 255; Status bit 0 is cleared, the
level is 0 and the state is Idle; nothing else changes. -/
def Obligations.CalSuccessSetsTheFloor : Prop :=
  ∀ s : State, s.indPhase = .free → s.calActive = true → s.calArmed = false →
    s.pulses * 60 / s.cfg.periodS > 200 →
    ∃ t, exec .calSuccess s = .next t ∧
      t = { s with mem := t.mem, pwmLevel := 0x00#8, calActive := false } ∧
      (t.mem.read 2).toNat = min (s.pwmLevel.toNat + 5) 255 ∧
      t.mem.read 0 = (s.mem.read 0 &&& 0xFE#8) ∧
      ∀ a, a ≠ 0 → a ≠ 2 → t.mem.read a = s.mem.read a

/-- R122. Ramping with rpm <= 200 below 255: the level rises by 5, saturating, Status bit 0 is kept set, and
the state stays Ramping; nothing else changes. -/
def Obligations.CalRampRaisesTheLevel : Prop :=
  ∀ s : State, s.indPhase = .free → s.calActive = true → s.calArmed = false →
    s.pulses * 60 / s.cfg.periodS ≤ 200 → s.pwmLevel.toNat < 255 →
    ∃ t, exec .calRamp s = .next t ∧ t = { s with mem := t.mem, pwmLevel := t.pwmLevel } ∧
      t.pwmLevel.toNat = min (s.pwmLevel.toNat + 5) 255 ∧
      t.mem.read 0 = (s.mem.read 0 ||| 0x01#8) ∧ ∀ a, a ≠ 0 → t.mem.read a = s.mem.read a

/-- R123. Ramping with rpm <= 200 at 255: Status bit 0 is cleared, the level is 0 and the state is Idle; the
floor and everything else is unchanged. -/
def Obligations.CalFailEndsWithTheFloorKept : Prop :=
  ∀ s : State, s.indPhase = .free → s.calActive = true → s.calArmed = false →
    s.pulses * 60 / s.cfg.periodS ≤ 200 → s.pwmLevel.toNat = 255 →
    ∃ t, exec .calFail s = .next t ∧
      t = { s with mem := t.mem, pwmLevel := 0x00#8, calActive := false } ∧
      t.mem.read 0 = (s.mem.read 0 &&& 0xFE#8) ∧ ∀ a, a ≠ 0 → t.mem.read a = s.mem.read a

/-- R124. Along every run of steps that stays LOCKED from StopRequested, however edges, bus operations, blinks
and idle passes fall between the ticks, the number of ticks says where the calibration is; the lockout outlives at most
53 ticks, and of the ticks that start in Ramping the j-th succeeds with floor min(5j, 255) if its rpm is above
200, and otherwise climbs for j < 52 and fails for j = 52. -/
def Obligations.CalibrationEndsWithinFiftyFourTicks : Prop :=
  ∀ (s u : State) (k n : Nat), s.inner = none → s.calState = .stopRequested →
    Run (fun x => x.locked = true) s k n u →
    (k = 0 → u.calState = .stopRequested) ∧
    (k = 1 → u.calState = .stopping ∧ u.pwmLevel = 0x00#8) ∧
    (2 ≤ k → u.calState = .ramping ∧ u.pwmLevel.toNat = min (5 * (k - 2)) 255) ∧
    k ≤ 53 ∧
    ∀ now rest, u.pending = .pass now :: rest → tickDue now u = true → 2 ≤ k →
      ∃ t, step u = .next t ∧
        (u.tachoCnt * 60 / u.cfg.periodS > 200 →
          t.calState = .idle ∧ (t.mem.read 2).toNat = min (5 * (k - 1)) 255) ∧
        (u.tachoCnt * 60 / u.cfg.periodS ≤ 200 → k ≤ 52 → t.calState = .ramping) ∧
        (u.tachoCnt * 60 / u.cfg.periodS ≤ 200 → k = 53 →
          t.calState = .idle ∧ t.mem.read 2 = u.mem.read 2)

/-- R125, R30. LOCKED is left only by a tick, or a calibration operation by itself, that ends the calibration
from Ramping; it is entered only by RESET or by a bus write that stores 0x01 in Status. -/
def Obligations.LockoutSpansTheCalibration : Prop :=
  ∀ (i : Instr) (s t : State), exec i s = .next t →
    (s.locked = true → t.locked = false →
      s.calState = .ramping ∧
      (i = .calSuccess ∨ i = .calFail ∨
        ∃ now, (i = .loopPass now ∨ i = .measTick now) ∧ tickDue now s = true)) ∧
    (s.locked = false → t.locked = true →
      t.calState = .stopRequested ∧
      ((∃ r, i = .reset r) ∨ (i.agent = .bus ∧ t.mem.read 0 = 0x01#8)))

/-- R178, R121, R123. When a pass ends a calibration, the fan is left stopped and SpeedCommand is as it was. -/
def Obligations.FanStoppedAfterCalibration : Prop :=
  ∀ (now : Nat) (s t : State), s.locked = true → exec (.loopPass now) s = .next t → t.locked = false →
    t.pwmLevel = 0x00#8 ∧ t.mem.read 1 = s.mem.read 1 ∧ t.mem.read 0 &&& 0x01#8 = 0x00#8

/-! ## Indicator -/

/-- R140. A requested blink begins: the output is asserted and the sequencer holds; the request stays. -/
def Obligations.IndAssertBeginsTheHold : Prop :=
  ∀ s : State, s.indPhase = .free → s.blinkReq = true →
    exec .indAssert s = .next { s with indOut := true, indPhase := .holding }

/-- R141. A held blink ends: the output is deasserted, the request cleared, the sequencer free; outside a hold
the operation is not enabled, and the state stays (the model's choice, log entry 8). -/
def Obligations.IndReleaseEndsTheHold : Prop :=
  ∀ s : State,
    (s.indPhase = .holding →
      exec .indRelease s = .next { s with indOut := false, blinkReq := false, indPhase := .free }) ∧
    (s.indPhase = .free → exec .indRelease s = .next s)

/-- R177. A write burst accepted during a hold gives no blink of its own: after the release, the next pass that
is no tick leaves the indicator off. -/
def Obligations.BlinksDuringAHoldMerge : Prop :=
  ∀ (b : List Byte) (now : Nat) (s : State), s.indPhase = .holding →
    ∃ t u, exec (.writeBurst b) s = .next t ∧ exec .indRelease t = .next u ∧
      u = { t with indOut := false, blinkReq := false, indPhase := .free } ∧
      (elapsed u.cfg.timeW now u.deadline = false → exec (.loopPass now) u = .next u)

/-! ## Reset -/

/-- R170, R40. RESET puts every piece of the block's state at its reset value, for any value of the time
source. -/
def Obligations.ResetSetsEveryPieceOfState : Prop :=
  ∀ (now : Nat) (s : State), ∃ t, exec (.reset now) s = .next t ∧
    (∀ a, t.mem.read a = 0x00#8) ∧ t.ptr = 0x00#8 ∧ t.calArmed = true ∧ t.calActive = false ∧
    t.pwmLevel = 0x00#8 ∧ t.tachoCnt = 0 ∧
    t.deadline = (now + 1000 * s.cfg.periodS) % 2 ^ s.cfg.timeW ∧
    t.blinkReq = false ∧ t.indOut = false ∧ t.indPhase = .free

/-- The model's choice (log entries 4, 5, 6, 7 and 15), for the fields R40 does not list: RESET clears the two
result registers, keeps the parameters and keeps the requests of the agents outside the block. -/
def Obligations.ResetClearsResultsAndKeepsInputs : Prop :=
  ∀ (now : Nat) (s : State), ∃ t, exec (.reset now) s = .next t ∧
    t.readData = 0x00#8 ∧ t.pulses = 0 ∧ t.cfg = s.cfg ∧ t.inner = s.inner ∧ t.pending = s.pending

/-- R40. The machine's first state holds the spec's reset values; its parameters are the spec's defaults (log
entry 1) and its DEADLINE is the one of a time source at 0 (both the model's choice, log entry 3). -/
def Obligations.ResetStateHasTheSpecsValues : Prop :=
  (∀ a, State.reset.mem.read a = 0x00#8) ∧ State.reset.ptr = 0x00#8 ∧
  State.reset.calState = .stopRequested ∧ State.reset.pwmLevel = 0x00#8 ∧ State.reset.tachoCnt = 0 ∧
  State.reset.deadline = 3000 ∧ State.reset.blinkReq = false ∧ State.reset.indOut = false ∧
  State.reset.indPhase = .free ∧ State.reset.cfg.wf

/-! ## The machine as a whole -/

/-- R41 to R44, R142, R32, R33. Every step, from any state that satisfies the invariant, keeps it. -/
def Obligations.EveryStepKeepsTheInvariant : Prop :=
  ∀ s t : State, s.Inv → step s = .next t → t.Inv

/-- The state after reset satisfies the invariant. -/
def Obligations.ResetSatisfiesTheInvariant : Prop := State.reset.Inv

/-- R150, R18. Every step has a next state: no fault and no refusal, in any state and for any requests. -/
def Obligations.EveryStepHasANextState : Prop :=
  ∀ s : State, ∃ t, step s = .next t

/-- R53, R52. A step takes the first request, decodes its word and runs exactly that operation, on the state
without that request; with no request placed nothing happens (the model's choice, log entry 6). Where a word
placed by `withFetchWord` lets the step begin inside a whole operation, it decodes the word of that place and
runs its operation, and the requests stay (the model's choice, log entry 7). -/
def Obligations.StepRunsTheDecodedOperation : Prop :=
  ∀ s : State,
    (s.inner = none → s.pending = [] → step s = .next s) ∧
    (∀ (r : Request) (rest : List Request) (i : Instr), s.inner = none → s.pending = r :: rest →
      decode s.cfg (s.frameOf r) = .ok i → step s = exec i { s with pending := rest }) ∧
    (∀ (q : Inner) (i : Instr), s.inner = some q →
      decode s.cfg (s.innerFrame q) = .ok i → step s = exec i { s with inner := none })

/-- R52, R67, R101, R131, R140. In a run a step serves the first request, whole: its operation is one of the
steps of their own. In no state at all does a step fetch DRAIN, MEAS_TICK, APPLY_LEVEL, IND_ASSERT, WR_PTR or
WR_DATA: these happen only inside the operations whose meanings perform them. -/
def Obligations.OnlyWholeOperationsAreServed : Prop :=
  (∀ (s : State) (r : Request) (rest : List Request), s.inner = none → s.pending = r :: rest →
    ∃ i, i.whole = true ∧ decode s.cfg (s.frameOf r) = .ok i ∧ step s = exec i { s with pending := rest }) ∧
  (∀ (s u : State) (f : Frame) (i : Instr), fetch s = some (f, u) → decode u.cfg f = .ok i →
    i ≠ .drain ∧ (∀ now, i ≠ .measTick now) ∧ (∀ v, i ≠ .applyLevel v) ∧ i ≠ .indAssert ∧
    (∀ p, i ≠ .wrPtr p) ∧ ∀ d, i ≠ .wrData d)

/-- R52. The block is between whole operations right after reset and after every step, so that every step of a
run from reset is a whole operation; the field that says so is the model's (log entry 7). -/
def Obligations.StepsEndBetweenWholeOperations : Prop :=
  State.reset.inner = none ∧ ∀ s t : State, step s = .next t → t.inner = none

/-- R58. Who writes what: each agent's operations change only the state the table gives that agent. -/
def Obligations.EachAgentWritesItsOwnState : Prop :=
  ∀ (i : Instr) (s t : State), exec i s = .next t →
    t.cfg = s.cfg ∧ t.inner = s.inner ∧ t.pending = s.pending ∧
    (i.agent = .tacho → t = { s with tachoCnt := t.tachoCnt }) ∧
    (i.agent = .bus →
      t = { s with
        mem := t.mem, ptr := t.ptr, calArmed := t.calArmed, pwmLevel := t.pwmLevel,
        blinkReq := t.blinkReq, readData := t.readData } ∧
      (s.calArmed = true → t.calArmed = true) ∧ (s.blinkReq = true → t.blinkReq = true)) ∧
    (i.agent = .seq →
      t = { s with
        mem := t.mem, calArmed := t.calArmed, calActive := t.calActive, pwmLevel := t.pwmLevel,
        tachoCnt := t.tachoCnt, deadline := t.deadline, blinkReq := t.blinkReq, indOut := t.indOut,
        indPhase := t.indPhase, pulses := t.pulses } ∧
      (t.calArmed = true → s.calArmed = true) ∧ (t.blinkReq = true → s.blinkReq = true) ∧
      (t.tachoCnt = s.tachoCnt ∨ t.tachoCnt = 0) ∧ t.mem.read 1 = s.mem.read 1)

/-- The model's choice (log entry 8), after R74's "selected by": an operation that is not selected is not
taken, and the state stays. -/
def Obligations.UnselectedOperationsChangeNothing : Prop :=
  ∀ (i : Instr) (s : State), enabled i s = false → exec i s = .next s

/-! ## Encoding -/

/-- R60 to R67, R74. Decoding the word of any well-formed operation gives that operation back, with every
operand at every value, for every choice of the parameters. -/
def Obligations.DecodeInvertsEncode : Prop :=
  ∀ (c : Config) (i : Instr), i.wf c = true → decode c (encode c i) = .ok i

/-- R63, R70. Every WD word decodes, its bits 15:8 alone select the operation, and the operation's word is
that word again. -/
def Obligations.EveryDataWordHasOneMeaning : Prop :=
  ∀ (c : Config) (p d : Byte), ∃ i,
    decode c { line := .wd, bytes := [d, p] } = .ok i ∧ i.wf c = true ∧
    encode c i = { line := .wd, bytes := [d, p] }

/-- R64, R75. Every write transaction, of any length and any bytes, is exactly one of WRITE_BURST and
WR_REJECT, by its count alone. -/
def Obligations.CountAloneSelectsBurstOrReject : Prop :=
  ∀ (c : Config) (b : List Byte), ∃ i, decode c { line := .wt, bytes := b } = .ok i ∧ i.wf c = true ∧
    (i = .writeBurst b ↔ 1 ≤ b.length ∧ b.length ≤ c.rxbufN) ∧
    (i = .wrReject b ↔ b.length = 0 ∨ c.rxbufN < b.length)

/-- R63 for the WD words: some words written out from the table decode to the operations they stand for. That
the 8-bit words 0b00000001 and 0b00000011 are CAL_STOP and CAL_TO_RAMP is the model's choice (DESIGN CHOICE, log
entries 10 and 11: the width of a bare word chooses its line, and a byte below 4 is a CS word with its condition
byte 0); R66's CS word has 2 bits, and R65 gives the same 8 bits to READ. -/
def Obligations.TableWordsDecode : Prop :=
  decodeTableWord 16 0b0000000000000011 = some (.wrStatus 0x03#8) ∧
  decodeTableWord 16 0b0000000110000000 = some (.wrSpeed 0x80#8) ∧
  decodeTableWord 16 0b0000001001100100 = some (.wrFloor 0x64#8) ∧
  decodeTableWord 16 0b0000011101010101 = some (.wrNone 0x07#8 0x55#8) ∧
  decodeTableWord 8 0b00000001 = some .calStop ∧
  decodeTableWord 8 0b00000011 = some .calToRamp

/-- R63. A WD word placed for the next step is fetched and run, on the state whose PTR is its bits 15:8; where
it is placed is the model's choice (log entries 7 and 20). -/
def Obligations.PlacedDataWordIsRunNext : Prop :=
  ∀ (s : State) (p d : Byte), ∃ i,
    decodeTableWord 16 (p.toNat * 256 + d.toNat) = some i ∧
    step (s.withFetchWord 16 (p.toNat * 256 + d.toNat)) = exec i { s with ptr := p, inner := none }
end

