-- ==== Sys2Proof/Laws/Memory.lean ====
section
/-!
SUPPORT. The laws of the register file: a read after a write, the canonical form, and its uniqueness.
-/

namespace Sys2Proof.Machine

open Sys2Proof

theorem cellsRead_erase_same (l : List Host.Cell) (a : Nat) : cellsRead (cellsErase l a) a = 0x00#8 := by
  induction l with
  | nil => rfl
  | cons c r ih =>
    obtain ⟨k, x⟩ := c
    by_cases h : k = a <;> simp [cellsErase, cellsRead, h, ih]

theorem cellsRead_erase_other (l : List Host.Cell) (a b : Nat) (h : b ≠ a) :
    cellsRead (cellsErase l a) b = cellsRead l b := by
  induction l with
  | nil => rfl
  | cons c r ih =>
    obtain ⟨k, x⟩ := c
    by_cases hk : k = a
    · have : a ≠ b := fun e => h e.symm
      simp [cellsErase, cellsRead, hk, ih, this]
    · simp [cellsErase, cellsRead, hk, ih]

theorem cellsRead_insert_other (l : List Host.Cell) (a b : Nat) (v : Byte) (h : b ≠ a) :
    cellsRead (cellsInsert l a v) b = cellsRead l b := by
  have h' : a ≠ b := fun e => h e.symm
  induction l with
  | nil => simp [cellsInsert, cellsRead, h']
  | cons c r ih =>
    obtain ⟨k, x⟩ := c
    by_cases hk : a < k <;> simp [cellsInsert, cellsRead, hk, ih, h']

theorem cellsRead_insert_erase (l : List Host.Cell) (a : Nat) (v : Byte) :
    cellsRead (cellsInsert (cellsErase l a) a v) a = v := by
  induction l with
  | nil => simp [cellsErase, cellsInsert, cellsRead]
  | cons c r ih =>
    obtain ⟨k, x⟩ := c
    by_cases hk : k = a
    · simpa [cellsErase, hk] using ih
    · by_cases hl : a < k <;> simp [cellsErase, cellsInsert, cellsRead, hk, hl, ih]

/-- A cell written reads back what was written, in any list of cells. -/
@[simp] theorem Memory.read_write_same (m : Memory) (a : Nat) (v : Byte) : (m.write a v).read a = v := by
  unfold Memory.write Memory.read
  split
  · simp_all [cellsRead_erase_same]
  · exact cellsRead_insert_erase _ _ _

/-- A write leaves every other cell as it was. -/
theorem Memory.read_write_other (m : Memory) (a b : Nat) (v : Byte) (h : b ≠ a) :
    (m.write a v).read b = m.read b := by
  unfold Memory.write Memory.read
  split
  · exact cellsRead_erase_other _ _ _ h
  · rw [cellsRead_insert_other _ _ _ _ h, cellsRead_erase_other _ _ _ h]

/-- A read after a write, both cases. -/
theorem Memory.read_write (m : Memory) (a b : Nat) (v : Byte) :
    (m.write a v).read b = if b = a then v else m.read b := by
  by_cases h : b = a
  · simp [h]
  · simp [h, Memory.read_write_other]

/-- With nothing listed every cell reads 0x00 (R40, R46). -/
@[simp] theorem Memory.read_empty (a : Nat) : Memory.read { cells := [] } a = 0x00#8 := rfl

theorem cellsWf_mono (l : List Host.Cell) (lo lo' : Nat) (h : lo' ≤ lo) (w : cellsWf lo l = true) :
    cellsWf lo' l = true := by
  cases l with
  | nil => rfl
  | cons c r =>
    obtain ⟨k, x⟩ := c
    simp only [cellsWf, Bool.and_eq_true, decide_eq_true_eq] at w ⊢
    exact ⟨⟨⟨by omega, w.1.1.2⟩, w.1.2⟩, w.2⟩

theorem cellsWf_erase (l : List Host.Cell) (lo a : Nat) (w : cellsWf lo l = true) :
    cellsWf lo (cellsErase l a) = true := by
  induction l generalizing lo with
  | nil => rfl
  | cons c r ih =>
    obtain ⟨k, x⟩ := c
    simp only [cellsWf, Bool.and_eq_true, decide_eq_true_eq] at w
    have hr := ih (k + 1) w.2
    by_cases hk : k = a
    · simpa [cellsErase, hk] using cellsWf_mono _ (k + 1) lo (by omega) hr
    · simp [cellsErase, hk, cellsWf, hr, w.1.1.1, w.1.1.2, w.1.2]

theorem cellsWf_insert_erase (l : List Host.Cell) (lo a : Nat) (v : Byte) (hlo : lo ≤ a) (ha : a < nreg)
    (hv : v ≠ 0x00#8) (w : cellsWf lo l = true) :
    cellsWf lo (cellsInsert (cellsErase l a) a v) = true := by
  induction l generalizing lo with
  | nil => simp [cellsErase, cellsInsert, cellsWf, hlo, ha, hv]
  | cons c r ih =>
    obtain ⟨k, x⟩ := c
    simp only [cellsWf, Bool.and_eq_true, decide_eq_true_eq] at w
    by_cases hk : k = a
    · simpa [cellsErase, hk] using
        ih lo hlo (cellsWf_mono r (k + 1) lo (by omega) w.2)
    · by_cases hl : a < k
      · have hr : cellsWf (k + 1) (cellsErase r a) = true := cellsWf_erase r (k + 1) a w.2
        simp [cellsErase, hk, cellsInsert, hl, cellsWf, hlo, ha, hv, hr, w.1.1.2, w.1.2]
      · simp [cellsErase, hk, cellsInsert, hl, cellsWf, ih (k + 1) (by omega) w.2, w.1.1.1, w.1.1.2, w.1.2]

/-- Every write to a cell keeps the canonical form. -/
theorem Memory.wf_write (m : Memory) (a : Nat) (v : Byte) (ha : a < nreg) (w : m.wf = true) :
    (m.write a v).wf = true := by
  unfold Memory.write Memory.wf at *
  split
  · exact cellsWf_erase _ _ _ w
  · next hv => exact cellsWf_insert_erase _ _ _ _ (Nat.zero_le a) ha hv w

/-- The register file after reset is in canonical form. -/
theorem reset_mem_wf : State.reset.mem.wf = true := rfl

/-- MemWrite keeps the canonical form at every pointer value (R46). -/
theorem memWrite_wf (s : State) (p v : Byte) (w : s.mem.wf = true) : (s.memWrite p v).mem.wf = true := by
  unfold State.memWrite
  split
  · next h => exact Memory.wf_write _ _ _ h w
  · exact w

theorem cellsRead_lt (l : List Host.Cell) (lo a : Nat) (w : cellsWf lo l = true) (h : a < lo) :
    cellsRead l a = 0x00#8 := by
  induction l generalizing lo with
  | nil => rfl
  | cons c r ih =>
    obtain ⟨k, x⟩ := c
    simp only [cellsWf, Bool.and_eq_true, decide_eq_true_eq] at w
    have : k ≠ a := by omega
    simpa [cellsRead, this] using ih (k + 1) w.2 (by omega)

/-- In canonical form, register files that read alike are equal data. -/
theorem Memory.ext_of_read (m n : Memory) (hm : m.wf = true) (hn : n.wf = true)
    (h : ∀ a, m.read a = n.read a) : m = n := by
  obtain ⟨l⟩ := m
  obtain ⟨l'⟩ := n
  congr 1
  have key : ∀ (l l' : List Host.Cell) (lo lo' : Nat), cellsWf lo l = true → cellsWf lo' l' = true →
      (∀ a, cellsRead l a = cellsRead l' a) → l = l' := by
    intro l
    induction l with
    | nil =>
      intro l' lo lo' _ w' h
      cases l' with
      | nil => rfl
      | cons c r =>
        obtain ⟨k, x⟩ := c
        simp only [cellsWf, Bool.and_eq_true, decide_eq_true_eq] at w'
        exact absurd (by simpa [cellsRead] using (h k).symm) w'.1.2
    | cons c r ih =>
      obtain ⟨k, x⟩ := c
      intro l' lo lo' w w' h
      simp only [cellsWf, Bool.and_eq_true, decide_eq_true_eq] at w
      cases l' with
      | nil => exact absurd (by simpa [cellsRead] using h k) w.1.2
      | cons c' r' =>
        obtain ⟨k', x'⟩ := c'
        simp only [cellsWf, Bool.and_eq_true, decide_eq_true_eq] at w'
        have hkk : k = k' := by
          rcases Nat.lt_trichotomy k k' with hlt | heq | hgt
          · have h1 := h k
            have : k' ≠ k := by omega
            rw [show cellsRead ((k', x') :: r') k = 0x00#8 by
              simpa [cellsRead, this] using cellsRead_lt r' (k' + 1) k w'.2 (by omega)] at h1
            exact absurd (by simpa [cellsRead] using h1) w.1.2
          · exact heq
          · have h1 := h k'
            have : k ≠ k' := by omega
            rw [show cellsRead ((k, x) :: r) k' = 0x00#8 by
              simpa [cellsRead, this] using cellsRead_lt r (k + 1) k' w.2 (by omega)] at h1
            exact absurd (by simpa [cellsRead] using h1.symm) w'.1.2
        subst hkk
        have hx : x = x' := by simpa [cellsRead] using h k
        subst hx
        have hr : r = r' := by
          refine ih r' (k + 1) (k + 1) w.2 w'.2 (fun a => ?_)
          by_cases ha : a < k + 1
          · rw [cellsRead_lt r (k + 1) a w.2 ha, cellsRead_lt r' (k + 1) a w'.2 ha]
          · have : k ≠ a := by omega
            simpa [cellsRead, this] using h a
        rw [hr]
  exact key l l' 0 0 hm hn h

end Sys2Proof.Machine
end

