-- ==== Sys2Proof/Laws/State.lean ====
section
/-!
SUPPORT. What each shared update of the state does to each field: one lemma per field per update.
-/

namespace Sys2Proof.Machine

open Sys2Proof

section
variable (s : State)

@[simp] theorem setReg_cfg (i : Nat) (v : Byte) : (s.setReg i v).cfg = s.cfg := rfl
@[simp] theorem setReg_mem (i : Nat) (v : Byte) : (s.setReg i v).mem = s.mem.write i v := rfl
@[simp] theorem setReg_ptr (i : Nat) (v : Byte) : (s.setReg i v).ptr = s.ptr := rfl
@[simp] theorem setReg_calArmed (i : Nat) (v : Byte) : (s.setReg i v).calArmed = s.calArmed := rfl
@[simp] theorem setReg_calActive (i : Nat) (v : Byte) : (s.setReg i v).calActive = s.calActive := rfl
@[simp] theorem setReg_pwmLevel (i : Nat) (v : Byte) : (s.setReg i v).pwmLevel = s.pwmLevel := rfl
@[simp] theorem setReg_tachoCnt (i : Nat) (v : Byte) : (s.setReg i v).tachoCnt = s.tachoCnt := rfl
@[simp] theorem setReg_deadline (i : Nat) (v : Byte) : (s.setReg i v).deadline = s.deadline := rfl
@[simp] theorem setReg_blinkReq (i : Nat) (v : Byte) : (s.setReg i v).blinkReq = s.blinkReq := rfl
@[simp] theorem setReg_indOut (i : Nat) (v : Byte) : (s.setReg i v).indOut = s.indOut := rfl
@[simp] theorem setReg_indPhase (i : Nat) (v : Byte) : (s.setReg i v).indPhase = s.indPhase := rfl
@[simp] theorem setReg_readData (i : Nat) (v : Byte) : (s.setReg i v).readData = s.readData := rfl
@[simp] theorem setReg_pulses (i : Nat) (v : Byte) : (s.setReg i v).pulses = s.pulses := rfl
@[simp] theorem setReg_inner (i : Nat) (v : Byte) : (s.setReg i v).inner = s.inner := rfl
@[simp] theorem setReg_pending (i : Nat) (v : Byte) : (s.setReg i v).pending = s.pending := rfl

@[simp] theorem dropRequest_cfg (r : List Request) : (s.dropRequest r).cfg = s.cfg := rfl
@[simp] theorem dropRequest_mem (r : List Request) : (s.dropRequest r).mem = s.mem := rfl
@[simp] theorem dropRequest_ptr (r : List Request) : (s.dropRequest r).ptr = s.ptr := rfl
@[simp] theorem dropRequest_calArmed (r : List Request) : (s.dropRequest r).calArmed = s.calArmed := rfl
@[simp] theorem dropRequest_calActive (r : List Request) : (s.dropRequest r).calActive = s.calActive := rfl
@[simp] theorem dropRequest_pwmLevel (r : List Request) : (s.dropRequest r).pwmLevel = s.pwmLevel := rfl
@[simp] theorem dropRequest_tachoCnt (r : List Request) : (s.dropRequest r).tachoCnt = s.tachoCnt := rfl
@[simp] theorem dropRequest_deadline (r : List Request) : (s.dropRequest r).deadline = s.deadline := rfl
@[simp] theorem dropRequest_blinkReq (r : List Request) : (s.dropRequest r).blinkReq = s.blinkReq := rfl
@[simp] theorem dropRequest_indOut (r : List Request) : (s.dropRequest r).indOut = s.indOut := rfl
@[simp] theorem dropRequest_indPhase (r : List Request) : (s.dropRequest r).indPhase = s.indPhase := rfl
@[simp] theorem dropRequest_readData (r : List Request) : (s.dropRequest r).readData = s.readData := rfl
@[simp] theorem dropRequest_pulses (r : List Request) : (s.dropRequest r).pulses = s.pulses := rfl
@[simp] theorem dropRequest_inner (r : List Request) : (s.dropRequest r).inner = s.inner := rfl
@[simp] theorem dropRequest_pending (r : List Request) : (s.dropRequest r).pending = r := rfl

@[simp] theorem place_cfg (r : Request) : (s.place r).cfg = s.cfg := rfl
@[simp] theorem place_mem (r : Request) : (s.place r).mem = s.mem := rfl
@[simp] theorem place_ptr (r : Request) : (s.place r).ptr = s.ptr := rfl
@[simp] theorem place_calArmed (r : Request) : (s.place r).calArmed = s.calArmed := rfl
@[simp] theorem place_calActive (r : Request) : (s.place r).calActive = s.calActive := rfl
@[simp] theorem place_pwmLevel (r : Request) : (s.place r).pwmLevel = s.pwmLevel := rfl
@[simp] theorem place_tachoCnt (r : Request) : (s.place r).tachoCnt = s.tachoCnt := rfl
@[simp] theorem place_deadline (r : Request) : (s.place r).deadline = s.deadline := rfl
@[simp] theorem place_blinkReq (r : Request) : (s.place r).blinkReq = s.blinkReq := rfl
@[simp] theorem place_indOut (r : Request) : (s.place r).indOut = s.indOut := rfl
@[simp] theorem place_indPhase (r : Request) : (s.place r).indPhase = s.indPhase := rfl
@[simp] theorem place_readData (r : Request) : (s.place r).readData = s.readData := rfl
@[simp] theorem place_pulses (r : Request) : (s.place r).pulses = s.pulses := rfl
@[simp] theorem place_inner (r : Request) : (s.place r).inner = none := rfl
@[simp] theorem place_pending (r : Request) : (s.place r).pending = r :: s.pending := rfl

@[simp] theorem enter_cfg (q : Inner) : (s.enter q).cfg = s.cfg := rfl
@[simp] theorem enter_mem (q : Inner) : (s.enter q).mem = s.mem := rfl
@[simp] theorem enter_ptr (q : Inner) : (s.enter q).ptr = s.ptr := rfl
@[simp] theorem enter_calArmed (q : Inner) : (s.enter q).calArmed = s.calArmed := rfl
@[simp] theorem enter_calActive (q : Inner) : (s.enter q).calActive = s.calActive := rfl
@[simp] theorem enter_pwmLevel (q : Inner) : (s.enter q).pwmLevel = s.pwmLevel := rfl
@[simp] theorem enter_tachoCnt (q : Inner) : (s.enter q).tachoCnt = s.tachoCnt := rfl
@[simp] theorem enter_deadline (q : Inner) : (s.enter q).deadline = s.deadline := rfl
@[simp] theorem enter_blinkReq (q : Inner) : (s.enter q).blinkReq = s.blinkReq := rfl
@[simp] theorem enter_indOut (q : Inner) : (s.enter q).indOut = s.indOut := rfl
@[simp] theorem enter_indPhase (q : Inner) : (s.enter q).indPhase = s.indPhase := rfl
@[simp] theorem enter_readData (q : Inner) : (s.enter q).readData = s.readData := rfl
@[simp] theorem enter_pulses (q : Inner) : (s.enter q).pulses = s.pulses := rfl
@[simp] theorem enter_inner (q : Inner) : (s.enter q).inner = some q := rfl
@[simp] theorem enter_pending (q : Inner) : (s.enter q).pending = s.pending := rfl

@[simp] theorem leave_cfg : s.leave.cfg = s.cfg := rfl
@[simp] theorem leave_mem : s.leave.mem = s.mem := rfl
@[simp] theorem leave_ptr : s.leave.ptr = s.ptr := rfl
@[simp] theorem leave_calArmed : s.leave.calArmed = s.calArmed := rfl
@[simp] theorem leave_calActive : s.leave.calActive = s.calActive := rfl
@[simp] theorem leave_pwmLevel : s.leave.pwmLevel = s.pwmLevel := rfl
@[simp] theorem leave_tachoCnt : s.leave.tachoCnt = s.tachoCnt := rfl
@[simp] theorem leave_deadline : s.leave.deadline = s.deadline := rfl
@[simp] theorem leave_blinkReq : s.leave.blinkReq = s.blinkReq := rfl
@[simp] theorem leave_indOut : s.leave.indOut = s.indOut := rfl
@[simp] theorem leave_indPhase : s.leave.indPhase = s.indPhase := rfl
@[simp] theorem leave_readData : s.leave.readData = s.readData := rfl
@[simp] theorem leave_pulses : s.leave.pulses = s.pulses := rfl
@[simp] theorem leave_inner : s.leave.inner = none := rfl
@[simp] theorem leave_pending : s.leave.pending = s.pending := rfl

@[simp] theorem setCalBit_cfg : s.setCalBit.cfg = s.cfg := rfl
@[simp] theorem setCalBit_mem : s.setCalBit.mem = s.mem.write 0 (s.reg 0 ||| 0x01#8) := rfl
@[simp] theorem setCalBit_ptr : s.setCalBit.ptr = s.ptr := rfl
@[simp] theorem setCalBit_calArmed : s.setCalBit.calArmed = s.calArmed := rfl
@[simp] theorem setCalBit_calActive : s.setCalBit.calActive = s.calActive := rfl
@[simp] theorem setCalBit_pwmLevel : s.setCalBit.pwmLevel = s.pwmLevel := rfl
@[simp] theorem setCalBit_tachoCnt : s.setCalBit.tachoCnt = s.tachoCnt := rfl
@[simp] theorem setCalBit_deadline : s.setCalBit.deadline = s.deadline := rfl
@[simp] theorem setCalBit_blinkReq : s.setCalBit.blinkReq = s.blinkReq := rfl
@[simp] theorem setCalBit_indOut : s.setCalBit.indOut = s.indOut := rfl
@[simp] theorem setCalBit_indPhase : s.setCalBit.indPhase = s.indPhase := rfl
@[simp] theorem setCalBit_readData : s.setCalBit.readData = s.readData := rfl
@[simp] theorem setCalBit_pulses : s.setCalBit.pulses = s.pulses := rfl
@[simp] theorem setCalBit_inner : s.setCalBit.inner = s.inner := rfl
@[simp] theorem setCalBit_pending : s.setCalBit.pending = s.pending := rfl

@[simp] theorem clearCalBit_cfg : s.clearCalBit.cfg = s.cfg := rfl
@[simp] theorem clearCalBit_mem : s.clearCalBit.mem = s.mem.write 0 (s.reg 0 &&& 0xFE#8) := rfl
@[simp] theorem clearCalBit_ptr : s.clearCalBit.ptr = s.ptr := rfl
@[simp] theorem clearCalBit_calArmed : s.clearCalBit.calArmed = s.calArmed := rfl
@[simp] theorem clearCalBit_calActive : s.clearCalBit.calActive = s.calActive := rfl
@[simp] theorem clearCalBit_pwmLevel : s.clearCalBit.pwmLevel = s.pwmLevel := rfl
@[simp] theorem clearCalBit_tachoCnt : s.clearCalBit.tachoCnt = s.tachoCnt := rfl
@[simp] theorem clearCalBit_deadline : s.clearCalBit.deadline = s.deadline := rfl
@[simp] theorem clearCalBit_blinkReq : s.clearCalBit.blinkReq = s.blinkReq := rfl
@[simp] theorem clearCalBit_indOut : s.clearCalBit.indOut = s.indOut := rfl
@[simp] theorem clearCalBit_indPhase : s.clearCalBit.indPhase = s.indPhase := rfl
@[simp] theorem clearCalBit_readData : s.clearCalBit.readData = s.readData := rfl
@[simp] theorem clearCalBit_pulses : s.clearCalBit.pulses = s.pulses := rfl
@[simp] theorem clearCalBit_inner : s.clearCalBit.inner = s.inner := rfl
@[simp] theorem clearCalBit_pending : s.clearCalBit.pending = s.pending := rfl

@[simp] theorem wrPtr_cfg (p : Byte) : (wrPtr p s).cfg = s.cfg := rfl
@[simp] theorem wrPtr_mem (p : Byte) : (wrPtr p s).mem = s.mem := rfl
@[simp] theorem wrPtr_ptr (p : Byte) : (wrPtr p s).ptr = p := rfl
@[simp] theorem wrPtr_calArmed (p : Byte) : (wrPtr p s).calArmed = s.calArmed := rfl
@[simp] theorem wrPtr_calActive (p : Byte) : (wrPtr p s).calActive = s.calActive := rfl
@[simp] theorem wrPtr_pwmLevel (p : Byte) : (wrPtr p s).pwmLevel = s.pwmLevel := rfl
@[simp] theorem wrPtr_tachoCnt (p : Byte) : (wrPtr p s).tachoCnt = s.tachoCnt := rfl
@[simp] theorem wrPtr_deadline (p : Byte) : (wrPtr p s).deadline = s.deadline := rfl
@[simp] theorem wrPtr_blinkReq (p : Byte) : (wrPtr p s).blinkReq = s.blinkReq := rfl
@[simp] theorem wrPtr_indOut (p : Byte) : (wrPtr p s).indOut = s.indOut := rfl
@[simp] theorem wrPtr_indPhase (p : Byte) : (wrPtr p s).indPhase = s.indPhase := rfl
@[simp] theorem wrPtr_readData (p : Byte) : (wrPtr p s).readData = s.readData := rfl
@[simp] theorem wrPtr_pulses (p : Byte) : (wrPtr p s).pulses = s.pulses := rfl
@[simp] theorem wrPtr_inner (p : Byte) : (wrPtr p s).inner = s.inner := rfl
@[simp] theorem wrPtr_pending (p : Byte) : (wrPtr p s).pending = s.pending := rfl

@[simp] theorem advancePtr_cfg : (advancePtr s).cfg = s.cfg := rfl
@[simp] theorem advancePtr_mem : (advancePtr s).mem = s.mem := rfl
@[simp] theorem advancePtr_ptr : (advancePtr s).ptr = adv s.ptr := rfl
@[simp] theorem advancePtr_calArmed : (advancePtr s).calArmed = s.calArmed := rfl
@[simp] theorem advancePtr_calActive : (advancePtr s).calActive = s.calActive := rfl
@[simp] theorem advancePtr_pwmLevel : (advancePtr s).pwmLevel = s.pwmLevel := rfl
@[simp] theorem advancePtr_tachoCnt : (advancePtr s).tachoCnt = s.tachoCnt := rfl
@[simp] theorem advancePtr_deadline : (advancePtr s).deadline = s.deadline := rfl
@[simp] theorem advancePtr_blinkReq : (advancePtr s).blinkReq = s.blinkReq := rfl
@[simp] theorem advancePtr_indOut : (advancePtr s).indOut = s.indOut := rfl
@[simp] theorem advancePtr_indPhase : (advancePtr s).indPhase = s.indPhase := rfl
@[simp] theorem advancePtr_readData : (advancePtr s).readData = s.readData := rfl
@[simp] theorem advancePtr_pulses : (advancePtr s).pulses = s.pulses := rfl
@[simp] theorem advancePtr_inner : (advancePtr s).inner = s.inner := rfl
@[simp] theorem advancePtr_pending : (advancePtr s).pending = s.pending := rfl

@[simp] theorem requestBlink_cfg : (requestBlink s).cfg = s.cfg := rfl
@[simp] theorem requestBlink_mem : (requestBlink s).mem = s.mem := rfl
@[simp] theorem requestBlink_ptr : (requestBlink s).ptr = s.ptr := rfl
@[simp] theorem requestBlink_calArmed : (requestBlink s).calArmed = s.calArmed := rfl
@[simp] theorem requestBlink_calActive : (requestBlink s).calActive = s.calActive := rfl
@[simp] theorem requestBlink_pwmLevel : (requestBlink s).pwmLevel = s.pwmLevel := rfl
@[simp] theorem requestBlink_tachoCnt : (requestBlink s).tachoCnt = s.tachoCnt := rfl
@[simp] theorem requestBlink_deadline : (requestBlink s).deadline = s.deadline := rfl
@[simp] theorem requestBlink_blinkReq : (requestBlink s).blinkReq = true := rfl
@[simp] theorem requestBlink_indOut : (requestBlink s).indOut = s.indOut := rfl
@[simp] theorem requestBlink_indPhase : (requestBlink s).indPhase = s.indPhase := rfl
@[simp] theorem requestBlink_readData : (requestBlink s).readData = s.readData := rfl
@[simp] theorem requestBlink_pulses : (requestBlink s).pulses = s.pulses := rfl
@[simp] theorem requestBlink_inner : (requestBlink s).inner = s.inner := rfl
@[simp] theorem requestBlink_pending : (requestBlink s).pending = s.pending := rfl

@[simp] theorem applyLevel_cfg (v : Byte) : (applyLevel v s).cfg = s.cfg := rfl
@[simp] theorem applyLevel_mem (v : Byte) : (applyLevel v s).mem = s.mem := rfl
@[simp] theorem applyLevel_ptr (v : Byte) : (applyLevel v s).ptr = s.ptr := rfl
@[simp] theorem applyLevel_calArmed (v : Byte) : (applyLevel v s).calArmed = s.calArmed := rfl
@[simp] theorem applyLevel_calActive (v : Byte) : (applyLevel v s).calActive = s.calActive := rfl
@[simp] theorem applyLevel_pwmLevel (v : Byte) : (applyLevel v s).pwmLevel = v := rfl
@[simp] theorem applyLevel_tachoCnt (v : Byte) : (applyLevel v s).tachoCnt = s.tachoCnt := rfl
@[simp] theorem applyLevel_deadline (v : Byte) : (applyLevel v s).deadline = s.deadline := rfl
@[simp] theorem applyLevel_blinkReq (v : Byte) : (applyLevel v s).blinkReq = s.blinkReq := rfl
@[simp] theorem applyLevel_indOut (v : Byte) : (applyLevel v s).indOut = s.indOut := rfl
@[simp] theorem applyLevel_indPhase (v : Byte) : (applyLevel v s).indPhase = s.indPhase := rfl
@[simp] theorem applyLevel_readData (v : Byte) : (applyLevel v s).readData = s.readData := rfl
@[simp] theorem applyLevel_pulses (v : Byte) : (applyLevel v s).pulses = s.pulses := rfl
@[simp] theorem applyLevel_inner (v : Byte) : (applyLevel v s).inner = s.inner := rfl
@[simp] theorem applyLevel_pending (v : Byte) : (applyLevel v s).pending = s.pending := rfl

@[simp] theorem tachoEdge_cfg : (tachoEdge s).cfg = s.cfg := rfl
@[simp] theorem tachoEdge_mem : (tachoEdge s).mem = s.mem := rfl
@[simp] theorem tachoEdge_ptr : (tachoEdge s).ptr = s.ptr := rfl
@[simp] theorem tachoEdge_calArmed : (tachoEdge s).calArmed = s.calArmed := rfl
@[simp] theorem tachoEdge_calActive : (tachoEdge s).calActive = s.calActive := rfl
@[simp] theorem tachoEdge_pwmLevel : (tachoEdge s).pwmLevel = s.pwmLevel := rfl
@[simp] theorem tachoEdge_tachoCnt : (tachoEdge s).tachoCnt = trunc s.cfg.tachoW (s.tachoCnt + 1) := rfl
@[simp] theorem tachoEdge_deadline : (tachoEdge s).deadline = s.deadline := rfl
@[simp] theorem tachoEdge_blinkReq : (tachoEdge s).blinkReq = s.blinkReq := rfl
@[simp] theorem tachoEdge_indOut : (tachoEdge s).indOut = s.indOut := rfl
@[simp] theorem tachoEdge_indPhase : (tachoEdge s).indPhase = s.indPhase := rfl
@[simp] theorem tachoEdge_readData : (tachoEdge s).readData = s.readData := rfl
@[simp] theorem tachoEdge_pulses : (tachoEdge s).pulses = s.pulses := rfl
@[simp] theorem tachoEdge_inner : (tachoEdge s).inner = s.inner := rfl
@[simp] theorem tachoEdge_pending : (tachoEdge s).pending = s.pending := rfl

@[simp] theorem drain_cfg : (drain s).cfg = s.cfg := rfl
@[simp] theorem drain_mem : (drain s).mem = s.mem := rfl
@[simp] theorem drain_ptr : (drain s).ptr = s.ptr := rfl
@[simp] theorem drain_calArmed : (drain s).calArmed = s.calArmed := rfl
@[simp] theorem drain_calActive : (drain s).calActive = s.calActive := rfl
@[simp] theorem drain_pwmLevel : (drain s).pwmLevel = s.pwmLevel := rfl
@[simp] theorem drain_tachoCnt : (drain s).tachoCnt = 0 := rfl
@[simp] theorem drain_deadline : (drain s).deadline = s.deadline := rfl
@[simp] theorem drain_blinkReq : (drain s).blinkReq = s.blinkReq := rfl
@[simp] theorem drain_indOut : (drain s).indOut = s.indOut := rfl
@[simp] theorem drain_indPhase : (drain s).indPhase = s.indPhase := rfl
@[simp] theorem drain_readData : (drain s).readData = s.readData := rfl
@[simp] theorem drain_pulses : (drain s).pulses = s.tachoCnt := rfl
@[simp] theorem drain_inner : (drain s).inner = s.inner := rfl
@[simp] theorem drain_pending : (drain s).pending = s.pending := rfl

@[simp] theorem rearm_cfg (now : Nat) : (rearm now s).cfg = s.cfg := rfl
@[simp] theorem rearm_mem (now : Nat) : (rearm now s).mem = s.mem := rfl
@[simp] theorem rearm_ptr (now : Nat) : (rearm now s).ptr = s.ptr := rfl
@[simp] theorem rearm_calArmed (now : Nat) : (rearm now s).calArmed = s.calArmed := rfl
@[simp] theorem rearm_calActive (now : Nat) : (rearm now s).calActive = s.calActive := rfl
@[simp] theorem rearm_pwmLevel (now : Nat) : (rearm now s).pwmLevel = s.pwmLevel := rfl
@[simp] theorem rearm_tachoCnt (now : Nat) : (rearm now s).tachoCnt = s.tachoCnt := rfl
@[simp] theorem rearm_deadline (now : Nat) : (rearm now s).deadline = trunc s.cfg.timeW (now + s.cfg.periodMs) := rfl
@[simp] theorem rearm_blinkReq (now : Nat) : (rearm now s).blinkReq = s.blinkReq := rfl
@[simp] theorem rearm_indOut (now : Nat) : (rearm now s).indOut = s.indOut := rfl
@[simp] theorem rearm_indPhase (now : Nat) : (rearm now s).indPhase = s.indPhase := rfl
@[simp] theorem rearm_readData (now : Nat) : (rearm now s).readData = s.readData := rfl
@[simp] theorem rearm_pulses (now : Nat) : (rearm now s).pulses = s.pulses := rfl
@[simp] theorem rearm_inner (now : Nat) : (rearm now s).inner = s.inner := rfl
@[simp] theorem rearm_pending (now : Nat) : (rearm now s).pending = s.pending := rfl

@[simp] theorem indAssert_cfg : (indAssert s).cfg = s.cfg := rfl
@[simp] theorem indAssert_mem : (indAssert s).mem = s.mem := rfl
@[simp] theorem indAssert_ptr : (indAssert s).ptr = s.ptr := rfl
@[simp] theorem indAssert_calArmed : (indAssert s).calArmed = s.calArmed := rfl
@[simp] theorem indAssert_calActive : (indAssert s).calActive = s.calActive := rfl
@[simp] theorem indAssert_pwmLevel : (indAssert s).pwmLevel = s.pwmLevel := rfl
@[simp] theorem indAssert_tachoCnt : (indAssert s).tachoCnt = s.tachoCnt := rfl
@[simp] theorem indAssert_deadline : (indAssert s).deadline = s.deadline := rfl
@[simp] theorem indAssert_blinkReq : (indAssert s).blinkReq = s.blinkReq := rfl
@[simp] theorem indAssert_indOut : (indAssert s).indOut = true := rfl
@[simp] theorem indAssert_indPhase : (indAssert s).indPhase = .holding := rfl
@[simp] theorem indAssert_readData : (indAssert s).readData = s.readData := rfl
@[simp] theorem indAssert_pulses : (indAssert s).pulses = s.pulses := rfl
@[simp] theorem indAssert_inner : (indAssert s).inner = s.inner := rfl
@[simp] theorem indAssert_pending : (indAssert s).pending = s.pending := rfl

@[simp] theorem indRelease_cfg : (indRelease s).cfg = s.cfg := rfl
@[simp] theorem indRelease_mem : (indRelease s).mem = s.mem := rfl
@[simp] theorem indRelease_ptr : (indRelease s).ptr = s.ptr := rfl
@[simp] theorem indRelease_calArmed : (indRelease s).calArmed = s.calArmed := rfl
@[simp] theorem indRelease_calActive : (indRelease s).calActive = s.calActive := rfl
@[simp] theorem indRelease_pwmLevel : (indRelease s).pwmLevel = s.pwmLevel := rfl
@[simp] theorem indRelease_tachoCnt : (indRelease s).tachoCnt = s.tachoCnt := rfl
@[simp] theorem indRelease_deadline : (indRelease s).deadline = s.deadline := rfl
@[simp] theorem indRelease_blinkReq : (indRelease s).blinkReq = false := rfl
@[simp] theorem indRelease_indOut : (indRelease s).indOut = false := rfl
@[simp] theorem indRelease_indPhase : (indRelease s).indPhase = .free := rfl
@[simp] theorem indRelease_readData : (indRelease s).readData = s.readData := rfl
@[simp] theorem indRelease_pulses : (indRelease s).pulses = s.pulses := rfl
@[simp] theorem indRelease_inner : (indRelease s).inner = s.inner := rfl
@[simp] theorem indRelease_pending : (indRelease s).pending = s.pending := rfl

end

end Sys2Proof.Machine
end

