-- ==== Sys2Proof/Laws/Ops.lean ====
section
/-!
SUPPORT. What each shared operation can do, said once: the register file through a state, the meaning of an
operation as one equation, the whole of a step, and the frames of the operations the meanings are made of.
-/

namespace Sys2Proof.Machine

open Sys2Proof

/-! ### The register file through a state -/

theorem reg_setReg (s : State) (i j : Nat) (v : Byte) :
    (s.setReg i v).reg j = if j = i then v else s.reg j := Memory.read_write s.mem i j v

@[simp] theorem reg_setReg_same (s : State) (i : Nat) (v : Byte) : (s.setReg i v).reg i = v :=
  Memory.read_write_same s.mem i v

theorem reg_setReg_other (s : State) (i j : Nat) (v : Byte) (h : j ≠ i) :
    (s.setReg i v).reg j = s.reg j := Memory.read_write_other s.mem i j v h

theorem memRead_lt (s : State) (p : Byte) (h : p.toNat < nreg) : s.memRead p = s.reg p.toNat := if_pos h

theorem memRead_ge (s : State) (p : Byte) (h : nreg ≤ p.toNat) : s.memRead p = 0x00#8 :=
  if_neg (Nat.not_lt.mpr h)

/-! ### Taking an operation -/

/-- An operation has a next state always. -/
theorem perform_next (i : Instr) (f : State → State) (s : State) :
    ∃ t, perform i f s = .next t := ⟨_, rfl⟩

theorem perform_of_enabled (i : Instr) (f : State → State) (s : State) (h : enabled i s = true) :
    perform i f s = .next (f s) := by simp [perform, h]

theorem perform_of_disabled (i : Instr) (f : State → State) (s : State) (h : enabled i s = false) :
    perform i f s = .next s := by simp [perform, h]

/-- The effect an operation has where it is selected. -/
def effect : Instr → State → State
  | .writeBurst b => writeBurst b
  | .wrPtr p => wrPtr p
  | .wrData d => wrData d
  | .wrReject b => wrReject b
  | .wrStatus d => wrStatus d
  | .wrSpeed d => wrSpeed d
  | .wrFloor d => wrFloor d
  | .wrRps d => wrRps d
  | .wrRpmLo d => wrRpmLo d
  | .wrRpmHi d => wrRpmHi d
  | .wrNone _ d => wrNone d
  | .read => readRequest
  | .tachoEdge => tachoEdge
  | .drain => drain
  | .loopPass now => loopPass now
  | .measTick now => measTick now
  | .calIdle => calIdle
  | .calStop => calStop
  | .calToRamp => calToRamp
  | .calSuccess => calSuccess
  | .calRamp => calRamp
  | .calFail => calFail
  | .applyLevel v => applyLevel v
  | .indAssert => indAssert
  | .indRelease => indRelease
  | .reset now => resetBlock now

/-- Every meaning is its effect where it is selected, and nothing elsewhere. -/
theorem exec_eq_perform (i : Instr) (s : State) : exec i s = perform i (effect i) s := by
  cases i <;> rfl

/-- What an operation's next state is: the effect, or the state itself where it is not selected. -/
theorem exec_next_cases (i : Instr) (s t : State) (h : exec i s = .next t) :
    (enabled i s = true ∧ t = effect i s) ∨ (enabled i s = false ∧ t = s) := by
  rw [exec_eq_perform] at h
  unfold perform at h
  injection h with h
  cases he : enabled i s
  · right; simp [he] at h; exact ⟨rfl, h.symm⟩
  · left; simp [he] at h; exact ⟨rfl, h.symm⟩

/-- What a step can do: nothing where no word is fetched; otherwise the word decodes, and the step is its
operation on the state fetched with it. -/
theorem step_next_cases (s t : State) (h : step s = .next t) :
    (fetch s = none ∧ t = s) ∨
    ∃ f u i, fetch s = some (f, u) ∧ decode u.cfg f = .ok i ∧ exec i u = .next t := by
  unfold step at h
  split at h
  · next hf => left; injection h with h; exact ⟨hf, h.symm⟩
  · next f u hf =>
    right
    split at h
    · next i hi => exact ⟨f, u, i, hf, hi, h⟩
    · cases h

/-- What is fetched: the word of the place the step begins at, the first request's word, or nothing. -/
theorem fetch_cases (s : State) :
    (∃ q, s.inner = some q ∧ fetch s = some (s.innerFrame q, s.leave)) ∨
    (s.inner = none ∧ s.pending = [] ∧ fetch s = none) ∨
    ∃ r rest, s.inner = none ∧ s.pending = r :: rest ∧
      fetch s = some (s.frameOf r, s.dropRequest rest) := by
  unfold fetch
  split
  · next q hq => exact .inl ⟨q, hq, rfl⟩
  · next hi =>
    split
    · next hp => exact .inr (.inl ⟨hi, hp, rfl⟩)
    · next r rest hp => exact .inr (.inr ⟨r, rest, hi, hp, rfl⟩)

/-! ### Numbers -/

theorem trunc_lt (w v : Nat) : trunc w v < 2 ^ w := Nat.mod_lt _ (Nat.two_pow_pos w)

theorem truncInt_lt (w : Nat) (v : Int) : truncInt w v < 2 ^ w := by
  have h0 : (0 : Int) < ((2 ^ w : Nat) : Int) := by exact_mod_cast Nat.two_pow_pos w
  have h1 := Int.emod_lt_of_pos v h0
  have h2 := Int.emod_nonneg v (ne_of_gt h0)
  unfold truncInt
  omega

theorem truncInt_cast (w : Nat) (v : Int) : (truncInt w v : Int) = v % ((2 ^ w : Nat) : Int) := by
  have h0 : ((2 ^ w : Nat) : Int) ≠ 0 := by exact_mod_cast (Nat.two_pow_pos w).ne'
  unfold truncInt
  rw [Int.toNat_of_nonneg (Int.emod_nonneg v h0)]

/-- The comparator fires exactly where the truncated difference is below half the range (R111). -/
theorem elapsed_iff (w now dl : Nat) :
    elapsed w now dl = true ↔ truncInt w ((now : Int) - (dl : Int)) < 2 ^ (w - 1) := by
  have h := truncInt_lt w ((now : Int) - (dl : Int))
  unfold elapsed signed
  rw [decide_eq_true_eq]
  split
  · next h' => exact ⟨fun _ => h', fun _ => by omega⟩
  · next h' => exact ⟨fun h'' => by omega, fun h'' => absurd h'' h'⟩

@[simp] theorem toBytes_length (n v : Nat) : (toBytes n v).length = n := by
  induction n generalizing v with
  | zero => rfl
  | succ n ih => simp [toBytes, ih]

/-- Bytes taken from a number and put together again give its low bytes. -/
theorem ofBytes_toBytes (n v : Nat) : ofBytes (toBytes n v) = v % 256 ^ n := by
  induction n generalizing v with
  | zero => simp [toBytes, ofBytes, Nat.mod_one]
  | succ n ih =>
    have h : v % 256 ^ (n + 1) = v % 256 + 256 * (v / 256 % 256 ^ n) := by
      rw [Nat.pow_add_one', Nat.mod_mul]
    simp only [toBytes, ofBytes, ih, BitVec.toNat_ofNat]
    exact h.symm

theorem two_pow_timeW_le (c : Config) : 2 ^ c.timeW ≤ 256 ^ timeBytes c := by
  have : (256 : Nat) = 2 ^ 8 := by norm_num
  rw [this, ← Nat.pow_mul]
  exact Nat.pow_le_pow_right (by norm_num) (by unfold timeBytes; omega)

/-- A time sample of TIME_W bits survives its bytes. -/
theorem ofBytes_time (c : Config) (now : Nat) (h : now < 2 ^ c.timeW) :
    ofBytes (toBytes (timeBytes c) now) = now := by
  rw [ofBytes_toBytes, Nat.mod_eq_of_lt (lt_of_lt_of_le h (two_pow_timeW_le c))]

/-- The word of a time sample decodes, to the sample truncated at the port. -/
theorem decodeTime_sample (c : Config) (line : Line) (mk : Nat → Instr) (now : Nat) :
    decodeTime c line mk (toBytes (timeBytes c) (trunc c.timeW now)) = .ok (mk (trunc c.timeW now)) := by
  have h := ofBytes_time c (trunc c.timeW now) (trunc_lt _ _)
  simp [decodeTime, h, trunc_lt]

/-- The comparator does not see the bits a sample loses at the port. -/
@[simp] theorem elapsed_trunc (w now dl : Nat) : elapsed w (trunc w now) dl = elapsed w now dl := by
  have h : truncInt w ((trunc w now : Nat) - (dl : Int)) = truncInt w ((now : Int) - dl) := by
    unfold truncInt trunc
    congr 1
    push_cast
    rw [Int.emod_sub_emod]
  unfold elapsed
  rw [h]

/-! ### Frames of the bus operations -/

/-- What one data byte can change: the register file, the flags and level a write to it moves, and PTR. -/
theorem wrData_frame (d : Byte) (s : State) :
    wrData d s = { s with
      mem := (wrData d s).mem, ptr := adv s.ptr, calArmed := (wrData d s).calArmed,
      pwmLevel := (wrData d s).pwmLevel } := by
  have key : cellByte d s = { s with
      mem := (cellByte d s).mem, calArmed := (cellByte d s).calArmed,
      pwmLevel := (cellByte d s).pwmLevel } := by
    unfold cellByte
    split
    · unfold wrStatus; split
      · rfl
      · dsimp only; split <;> rfl
    · unfold wrSpeed; split <;> rfl
    · unfold wrFloor; split <;> rfl
    · rfl
    · rfl
    · rfl
    · rfl
  unfold wrData advancePtr
  rw [key]

/-- What the data bytes of a transaction can change. -/
theorem wrDataAll_frame (ds : List Byte) (s : State) :
    wrDataAll ds s = { s with
      mem := (wrDataAll ds s).mem, ptr := (wrDataAll ds s).ptr, calArmed := (wrDataAll ds s).calArmed,
      pwmLevel := (wrDataAll ds s).pwmLevel } := by
  induction ds generalizing s with
  | nil => rfl
  | cons d ds ih =>
    have h1 := ih (wrData d s)
    have h2 := wrData_frame d s
    simp only [wrDataAll]
    rw [h2] at h1 ⊢
    exact h1

/-- A transaction is rejected, or it is the pointer byte, the data bytes and the blink request (R80). -/
theorem writeBurst_cases (b : List Byte) (s : State) :
    ((b.length = 0 ∨ s.cfg.rxbufN < b.length) ∧ writeBurst b s = s) ∨
    ∃ p ds, b = p :: ds ∧ b.length ≤ s.cfg.rxbufN ∧
      writeBurst b s = requestBlink (wrDataAll ds (wrPtr p s)) := by
  unfold writeBurst
  split
  · next h => exact .inl ⟨h, rfl⟩
  · next h =>
    cases b with
    | nil => simp at h
    | cons p ds => exact .inr ⟨p, ds, rfl, by omega, rfl⟩

/-! ### Frames of the sequencer's operations -/

/-- What a calibration step can change. -/
theorem calStep_frame (s : State) :
    calStep s = { s with
      mem := (calStep s).mem, calArmed := (calStep s).calArmed, calActive := (calStep s).calActive,
      pwmLevel := (calStep s).pwmLevel } := by
  unfold calStep
  split
  · rfl
  · rfl
  · rfl
  · split
    · rfl
    · split <;> rfl

/-- A calibration step touches no cell but Status and MinPwmFloor. -/
theorem calStep_reg_other (s : State) (a : Nat) (h0 : a ≠ 0) (h2 : a ≠ 2) :
    (calStep s).mem.read a = s.mem.read a := by
  have w : ∀ (m : Memory) (i : Nat) (v : Byte), a ≠ i → (m.write i v).read a = m.read a :=
    fun m i v h => Memory.read_write_other m i a v h
  unfold calStep
  split
  · rfl
  · simp [calStop, w, h0]
  · rfl
  · split
    · simp [calSuccess, w, h0, h2]
    · split
      · simp [calRamp, w, h0]
      · simp [calFail, w, h0]

/-- What a tick can change: the window is drained, the deadline set, and the cells, flags and level follow. -/
theorem measTick_frame (now : Nat) (s : State) :
    measTick now s = { s with
      mem := (measTick now s).mem, calArmed := (measTick now s).calArmed,
      calActive := (measTick now s).calActive, pwmLevel := (measTick now s).pwmLevel,
      pulses := s.tachoCnt, tachoCnt := 0,
      deadline := trunc s.cfg.timeW (now + s.cfg.periodMs) } := by
  unfold measTick
  rw [calStep_frame]
  rfl

/-- A pass is nothing or a tick, and then a blink if one is requested (R110). -/
theorem loopPass_cases (now : Nat) (s : State) :
    ∃ t, (elapsed s.cfg.timeW now s.deadline = true → t = measTick now s) ∧
      (elapsed s.cfg.timeW now s.deadline = false → t = s) ∧
      loopPass now s = if s.blinkReq then indAssert t else t := by
  unfold loopPass
  cases he : elapsed s.cfg.timeW now s.deadline
  · exact ⟨s, by simp, by simp, by simp⟩
  · refine ⟨measTick now s, by simp, by simp, ?_⟩
    have : (measTick now s).blinkReq = s.blinkReq := by rw [measTick_frame]
    simp [this]

end Sys2Proof.Machine
end

