-- ==== Sys2Proof/Laws/PerInstr.lean ====
section
/-!
SUPPORT. The families of statements made per operation. `EncodedWidth`: the word of a well-formed operation
has the number of bytes its format has (spec/30_encoding.md R60 to R67).
-/

namespace Sys2Proof

/-- The bytes of an operation's word: the transaction's own for WT, whole bytes of TIME_W bits for a time
sample, two for WD and CS, one for WF and RQ and for the level, none for the other events. -/
def Instr.wordBytes (c : Config) : Instr → Nat
  | .writeBurst b => b.length
  | .wrPtr _ => 1
  | .wrData _ => 1
  | .wrReject b => b.length
  | .wrStatus _ => 2
  | .wrSpeed _ => 2
  | .wrFloor _ => 2
  | .wrRps _ => 2
  | .wrRpmLo _ => 2
  | .wrRpmHi _ => 2
  | .wrNone _ _ => 2
  | .read => 1
  | .tachoEdge => 0
  | .drain => 0
  | .loopPass _ => timeBytes c
  | .measTick _ => timeBytes c
  | .calIdle => 2
  | .calStop => 2
  | .calToRamp => 2
  | .calSuccess => 2
  | .calRamp => 2
  | .calFail => 2
  | .applyLevel _ => 1
  | .indAssert => 0
  | .indRelease => 0
  | .reset _ => timeBytes c

/-- The word of `i` has its format's number of bytes, for every choice of the parameters. -/
def Laws.EncodedWidth.Statement (i : Instr) : Prop :=
  ∀ c : Config, (encode c i).bytes.length = i.wordBytes c

theorem Laws.EncodedWidth.writeBurst (b : List Byte) : Laws.EncodedWidth.Statement (.writeBurst b) := fun _ => rfl
theorem Laws.EncodedWidth.wrPtr (p : Byte) : Laws.EncodedWidth.Statement (.wrPtr p) := fun _ => rfl
theorem Laws.EncodedWidth.wrData (d : Byte) : Laws.EncodedWidth.Statement (.wrData d) := fun _ => rfl
theorem Laws.EncodedWidth.wrReject (b : List Byte) : Laws.EncodedWidth.Statement (.wrReject b) := fun _ => rfl
theorem Laws.EncodedWidth.wrStatus (d : Byte) : Laws.EncodedWidth.Statement (.wrStatus d) := fun _ => rfl
theorem Laws.EncodedWidth.wrSpeed (d : Byte) : Laws.EncodedWidth.Statement (.wrSpeed d) := fun _ => rfl
theorem Laws.EncodedWidth.wrFloor (d : Byte) : Laws.EncodedWidth.Statement (.wrFloor d) := fun _ => rfl
theorem Laws.EncodedWidth.wrRps (d : Byte) : Laws.EncodedWidth.Statement (.wrRps d) := fun _ => rfl
theorem Laws.EncodedWidth.wrRpmLo (d : Byte) : Laws.EncodedWidth.Statement (.wrRpmLo d) := fun _ => rfl
theorem Laws.EncodedWidth.wrRpmHi (d : Byte) : Laws.EncodedWidth.Statement (.wrRpmHi d) := fun _ => rfl
theorem Laws.EncodedWidth.wrNone (p d : Byte) : Laws.EncodedWidth.Statement (.wrNone p d) := fun _ => rfl
theorem Laws.EncodedWidth.read : Laws.EncodedWidth.Statement .read := fun _ => rfl
theorem Laws.EncodedWidth.tachoEdge : Laws.EncodedWidth.Statement .tachoEdge := fun _ => rfl
theorem Laws.EncodedWidth.drain : Laws.EncodedWidth.Statement .drain := fun _ => rfl
theorem Laws.EncodedWidth.loopPass (now : Nat) : Laws.EncodedWidth.Statement (.loopPass now) :=
  fun c => Machine.toBytes_length (timeBytes c) now
theorem Laws.EncodedWidth.measTick (now : Nat) : Laws.EncodedWidth.Statement (.measTick now) :=
  fun c => Machine.toBytes_length (timeBytes c) now
theorem Laws.EncodedWidth.calIdle : Laws.EncodedWidth.Statement .calIdle := fun _ => rfl
theorem Laws.EncodedWidth.calStop : Laws.EncodedWidth.Statement .calStop := fun _ => rfl
theorem Laws.EncodedWidth.calToRamp : Laws.EncodedWidth.Statement .calToRamp := fun _ => rfl
theorem Laws.EncodedWidth.calSuccess : Laws.EncodedWidth.Statement .calSuccess := fun _ => rfl
theorem Laws.EncodedWidth.calRamp : Laws.EncodedWidth.Statement .calRamp := fun _ => rfl
theorem Laws.EncodedWidth.calFail : Laws.EncodedWidth.Statement .calFail := fun _ => rfl
theorem Laws.EncodedWidth.applyLevel (v : Byte) : Laws.EncodedWidth.Statement (.applyLevel v) := fun _ => rfl
theorem Laws.EncodedWidth.indAssert : Laws.EncodedWidth.Statement .indAssert := fun _ => rfl
theorem Laws.EncodedWidth.indRelease : Laws.EncodedWidth.Statement .indRelease := fun _ => rfl
theorem Laws.EncodedWidth.reset (now : Nat) : Laws.EncodedWidth.Statement (.reset now) :=
  fun c => Machine.toBytes_length (timeBytes c) now

end Sys2Proof
end

