-- ==== Sys2Proof/Machine/Script.lean ====
section
/-!
DEFINITION. The script lines and the pseudo-operations of spec/30_encoding.md R72, R73, and the read
transaction of R61, each as the requests it expands to.
-/

namespace Sys2Proof.Machine

open Sys2Proof

/-- A read transaction of `m` read requests (R61). -/
def readTransaction (m : Nat) : List Request := List.replicate m .readByte

/-- One line of a script (R72). -/
inductive ScriptLine
  /-- `RESET t`. -/
  | reset (t : Nat)
  /-- `W b0, ..., bk-1`. -/
  | w (b : List Byte)
  /-- `R m`. -/
  | r (m : Nat)
  /-- `E n`. -/
  | e (n : Nat)
  /-- `P t`. -/
  | p (t : Nat)
  /-- `IA`. -/
  | ia
  /-- `IR`. -/
  | ir
deriving DecidableEq, Repr

/-- The requests of a script line (R72). IA asks for nothing: IND_ASSERT is performed only as the last action
of a pass, so the line records what the P before it did (R67, R140; log entry 23). -/
def scriptRequests : ScriptLine → List Request
  | .reset t => [.reset t]
  | .w b => [.burst b]
  | .r m => readTransaction m
  | .e n => List.replicate n .edge
  | .p t => [.pass t]
  | .ia => []
  | .ir => [.release]

/-- SETPTR (R73). -/
def setPtrScript (p : Byte) : List ScriptLine := [.w [p]]

/-- WRREG (R73). -/
def wrRegScript (r : Byte) (v : List Byte) : List ScriptLine := [.w (r :: v)]

/-- RDREG (R73). -/
def rdRegScript (r : Byte) (m : Nat) : List ScriptLine := [.w [r], .r m]

/-- RDRPM (R73). -/
def rdRpmScript : List ScriptLine := rdRegScript 0x04#8 2

/-- RDTELEM (R73). -/
def rdTelemScript : List ScriptLine := rdRegScript 0x03#8 3

/-- CALIBRATE (R73). -/
def calibrateScript : List ScriptLine := wrRegScript 0x00#8 [0x01#8]

/-- SETSPEED (R73). -/
def setSpeedScript (v : Byte) : List ScriptLine := wrRegScript 0x01#8 [v]

/-- SETFLOOR (R73). -/
def setFloorScript (f : Byte) : List ScriptLine := wrRegScript 0x02#8 [f]

/-- The requests of a script, in order. -/
def scheduleOf (lines : List ScriptLine) : List Request := lines.flatMap scriptRequests

end Sys2Proof.Machine
end

