-- ==== Sys2Proof/Tests/Slice0.lean ====
section
/-!
SUPPORT. Tests. Expected values are the vectors of spec/95_test_vectors.md (named in the comments) or words
written out from spec/30_encoding.md; the witnesses show that a statement's hypotheses can be met.
-/

namespace Sys2Proof.Tests

open Sys2Proof Sys2Proof.Machine

/-- What one field of the next state is. -/
def after {α : Type} (o : Host.Outcome State Fault Refusal) (f : State → α) : Option α :=
  match o with
  | .next t => some (f t)
  | _ => none

/-- The Idle block with the given cells, the deadline at 3000. -/
def idle (cells : List Host.Cell) : State :=
  { State.reset with calArmed := false, mem := { cells := cells } }

/-- The block in Stopping. -/
def stopping (cells : List Host.Cell) : State :=
  { State.reset with calActive := true, mem := { cells := cells } }

/-- The block in Ramping at a level, with a drained window. -/
def ramping (pwm : Byte) (pulses : Nat) (cells : List Host.Cell) : State :=
  { State.reset with
    calArmed := false, calActive := true, pwmLevel := pwm, pulses := pulses, mem := { cells := cells } }

/-- The Idle block inside an indicator hold. -/
def holding : State := { idle [] with indPhase := .holding, indOut := true, blinkReq := true }

/-- The listed cells of a state. -/
def cells (s : State) : List Host.Cell := s.mem.cells

/-! ### WellFormed: an ill-formed term for each check -/

/-- A burst of no bytes is not accepted (R64). -/
theorem test_wf_empty_burst : (Instr.writeBurst []).wf Config.standard = false := by decide
/-- A burst of 17 bytes is not accepted at RXBUF_N = 16 (R64). -/
theorem test_wf_long_burst :
    (Instr.writeBurst (List.replicate 17 0#8)).wf Config.standard = false := by decide
/-- An accepted burst is no rejected one (R64). -/
theorem test_wf_reject_of_accepted : (Instr.wrReject [1#8]).wf Config.standard = false := by decide
/-- WR_NONE is for pointers of 6 and more (R63). -/
theorem test_wf_none_below_six : (Instr.wrNone 5#8 0#8).wf Config.standard = false := by decide
/-- A time sample has TIME_W bits (R67). -/
theorem test_wf_pass_too_wide : (Instr.loopPass (2 ^ 32)).wf Config.standard = false := by decide
/-- The tick's sample has TIME_W bits (R113). -/
theorem test_wf_tick_too_wide : (Instr.measTick (2 ^ 32)).wf Config.standard = false := by decide
/-- RESET's sample has TIME_W bits (R67). -/
theorem test_wf_reset_too_wide : (Instr.reset (2 ^ 32)).wf Config.standard = false := by decide

/-! ### Decode: one word written out for each operation -/

theorem test_decode_writeBurst : decode Config.standard
    { line := .wt, bytes := [0b00000001#8, 0b10000000#8] } =
      .ok (.writeBurst [0x01#8, 0x80#8]) := by rfl
theorem test_decode_wrReject :
    decode Config.standard { line := .wt, bytes := [] } = .ok (.wrReject []) := by rfl
theorem test_decode_wrPtr :
    decode Config.standard { line := .wfPtr, bytes := [0b11001000#8] } = .ok (.wrPtr 0xC8#8) := by rfl
theorem test_decode_wrData :
    decode Config.standard { line := .wfData, bytes := [0b00010010#8] } = .ok (.wrData 0x12#8) := by rfl
theorem test_decode_wrStatus : decodeTableWord 16 0b0000000000000001 = some (.wrStatus 0x01#8) := by rfl
theorem test_decode_wrSpeed : decodeTableWord 16 0b0000000100100010 = some (.wrSpeed 0x22#8) := by rfl
theorem test_decode_wrFloor : decodeTableWord 16 0b0000001001000000 = some (.wrFloor 0x40#8) := by rfl
theorem test_decode_wrRps : decodeTableWord 16 0b0000001110011001 = some (.wrRps 0x99#8) := by rfl
theorem test_decode_wrRpmLo : decodeTableWord 16 0b0000010010101011 = some (.wrRpmLo 0xAB#8) := by rfl
theorem test_decode_wrRpmHi : decodeTableWord 16 0b0000010111001101 = some (.wrRpmHi 0xCD#8) := by rfl
theorem test_decode_wrNone_six :
    decodeTableWord 16 0b0000011001010101 = some (.wrNone 0x06#8 0x55#8) := by rfl
theorem test_decode_wrNone_top :
    decodeTableWord 16 0b1111111100010000 = some (.wrNone 0xFF#8 0x10#8) := by rfl
theorem test_decode_read :
    decode Config.standard { line := .rq, bytes := [0b00000101#8] } = .ok .read := by rfl
theorem test_decode_tachoEdge :
    decode Config.standard { line := .evTacho, bytes := [] } = .ok .tachoEdge := by rfl
theorem test_decode_drain :
    decode Config.standard { line := .evDrain, bytes := [] } = .ok .drain := by rfl
theorem test_decode_loopPass : decode Config.standard
    { line := .lp, bytes := [0b10111000#8, 0b00001011#8, 0#8, 0#8] } = .ok (.loopPass 3000) := by decide
theorem test_decode_measTick : decode Config.standard
    { line := .evTick, bytes := [0#8, 0#8, 0#8, 0b10000000#8] } = .ok (.measTick 0x80000000) := by decide
theorem test_decode_calIdle : decodeTableWord 8 0b00 = some .calIdle := by decide
theorem test_decode_calStop : decodeTableWord 8 0b01 = some .calStop := by decide
theorem test_decode_calToRamp : decodeTableWord 8 0b11 = some .calToRamp := by decide
theorem test_decode_calRamp : decodeTableWord 8 0b10 = some .calRamp := by decide
theorem test_decode_calSuccess :
    decode Config.standard { line := .cs, bytes := [0b10#8, 0b01#8] } = .ok .calSuccess := by decide
theorem test_decode_calFail :
    decode Config.standard { line := .cs, bytes := [0b10#8, 0b10#8] } = .ok .calFail := by decide
theorem test_decode_applyLevel :
    decode Config.standard { line := .evApply, bytes := [0xB1#8] } = .ok (.applyLevel 177#8) := by rfl
theorem test_decode_indAssert :
    decode Config.standard { line := .evAssert, bytes := [] } = .ok .indAssert := by rfl
theorem test_decode_indRelease :
    decode Config.standard { line := .evRelease, bytes := [] } = .ok .indRelease := by rfl
theorem test_decode_reset : decode Config.standard
    { line := .rs, bytes := [0b11101000#8, 0b00000011#8, 0#8, 0#8] } = .ok (.reset 1000) := by decide
/-- A CS word has no bit above its two conditions. -/
theorem test_decode_reserved_cs :
    decode Config.standard { line := .cs, bytes := [0b100#8, 0#8] } = .error (.reservedBits .cs) := by decide
/-- An event carries no bits (R67). -/
theorem test_decode_event_with_bits :
    decode Config.standard { line := .evTacho, bytes := [0#8] } = .error (.wrongLength .evTacho) := by rfl

/-! ### The operations: the vectors of spec/95_test_vectors.md -/

/-- V20-1 to V20-3. -/
theorem test_adv : [0, 1, 4, 5, 6, 7, 255].map (fun p : Nat => (adv (BitVec.ofNat 8 p)).toNat) =
    [1, 2, 5, 0, 0, 0, 0] := by decide
/-- The remap table of 43_speed_driver.md. -/
theorem test_level : [(0, 200), (1, 0), (255, 100), (1, 100), (128, 100), (128, 64), (34, 100), (127, 130),
      (1, 255), (254, 1), (254, 254)].map
      (fun p : Nat × Nat => (level (BitVec.ofNat 8 p.1) (BitVec.ofNat 8 p.2)).toNat) =
    [0, 1, 255, 100, 177, 159, 120, 192, 255, 254, 254] := by decide
/-- V42-1 to V42-8. -/
theorem test_elapsed_32 : [(1, 0xFFFFFFFE), (0xFFFFFFFD, 0xFFFFFFFE), (3000, 3000), (2999, 3000),
      (0x7FFFFFFF, 0), (0x80000000, 0), (0, 0x80000000), (0xFFFFFFFF, 0x80000000)].map
      (fun p : Nat × Nat => elapsed 32 p.1 p.2) =
    [true, false, true, false, true, false, false, true] := by decide
/-- V42-9 to V42-11. -/
theorem test_elapsed_16 : [(0x0001, 0xFFFE), (0x8BB7, 0x0BB8), (0x8BB8, 0x0BB8)].map
      (fun p : Nat × Nat => elapsed 16 p.1 p.2) = [true, true, false] := by decide

/-- V40-7: two recomputes, the second is left. -/
theorem test_writeBurst_speed_floor :
    after (exec (.writeBurst [0x01#8, 0x80#8, 0x40#8]) (idle [])) (fun t => (cells t, t.pwmLevel, t.ptr, t.blinkReq)) =
      some ([(1, 0x80#8), (2, 0x40#8)], 159#8, 3#8, true) := by decide
/-- V40-5: a burst that arms locks its own later bytes. -/
theorem test_writeBurst_arms_and_locks :
    after (exec (.writeBurst [0x00#8, 0x01#8, 0x80#8]) (idle [])) (fun t => (cells t, t.calState, t.ptr)) =
      some ([(0, 0x01#8)], .stopRequested, 2#8) := by decide
/-- V40-2, without the blink request, which is the whole transaction's. -/
theorem test_wrPtr : after (exec (.wrPtr 0x05#8) (idle [])) (fun t => (t.ptr, t.blinkReq)) =
    some (5#8, false) := by decide
/-- The example of R82. -/
theorem test_wrData_wraps :
    after (exec (.wrData 0x12#8) { idle [] with ptr := 5#8 }) (fun t => (cells t, t.ptr)) =
      some ([(5, 0x12#8)], 0#8) := by decide
/-- V40-18, V40-19. -/
theorem test_wrReject :
    after (exec (.writeBurst (0x01#8 :: List.replicate 16 0xFF#8)) (idle [(1, 0x80#8)])) id =
      some (idle [(1, 0x80#8)]) := by decide
/-- V40-3. -/
theorem test_wrStatus_odd : after (exec (.wrStatus 0x03#8) (idle [])) (fun t => (cells t, t.calState)) =
    some ([(0, 0x01#8)], .stopRequested) := by decide
/-- V40-4. -/
theorem test_wrStatus_even : after (exec (.wrStatus 0xFE#8) (idle [])) (fun t => (cells t, t.calState)) =
    some ([], .idle) := by decide
/-- V40-9. -/
theorem test_wrSpeed :
    after (exec (.wrSpeed 0x01#8) { idle [(1, 0x20#8), (2, 0xFF#8)] with ptr := 1#8 })
      (fun t => (cells t, t.pwmLevel)) = some ([(1, 0x01#8), (2, 0xFF#8)], 255#8) := by decide
/-- V70-4: locked after reset. -/
theorem test_wrSpeed_locked :
    after (exec (.wrSpeed 0x80#8) { State.reset with ptr := 1#8 }) (fun t => (cells t, t.pwmLevel)) =
      some ([], 0#8) := by decide
/-- V40-8. -/
theorem test_wrFloor_fan_stopped :
    after (exec (.wrFloor 0xC8#8) { idle [] with ptr := 2#8 }) (fun t => (cells t, t.pwmLevel)) =
      some ([(2, 0xC8#8)], 0#8) := by decide
/-- V40-12: telemetry is stored while LOCKED. -/
theorem test_wrRps_locked :
    after (exec (.wrRps 0x99#8) { ramping 0#8 0 [(0, 1#8), (3, 0x04#8)] with ptr := 3#8 }) cells =
      some [(0, 1#8), (3, 0x99#8)] := by decide
/-- V40-13. -/
theorem test_wrRpmLo : after (exec (.wrRpmLo 0xAB#8) { idle [] with ptr := 4#8 }) cells =
    some [(4, 0xAB#8)] := by decide
/-- V40-13; a byte of 0x00 leaves the cell unlisted. -/
theorem test_wrRpmHi : after (exec (.wrRpmHi 0x00#8) { idle [(5, 0xCD#8)] with ptr := 5#8 }) cells =
    some [] := by decide
/-- V40-16. -/
theorem test_wrNone : after (exec (.wrData 0x10#8) { idle [] with ptr := 0xFF#8 }) (fun t => (cells t, t.ptr)) =
    some ([], 0#8) := by decide
/-- V40-22. -/
theorem test_read_five : after (exec .read { idle [(5, 0x3C#8)] with ptr := 5#8 }) (fun t => (t.readData, t.ptr)) =
    some (0x3C#8, 0#8) := by decide
/-- V40-23. -/
theorem test_read_out_of_range :
    after (exec .read { idle [(0, 1#8)] with ptr := 0xFF#8, readData := 7#8 }) (fun t => (t.readData, t.ptr)) =
      some (0x00#8, 0#8) := by decide
/-- V41-2. -/
theorem test_tachoEdge_wraps : after (exec .tachoEdge { idle [] with tachoCnt := 0xFFFF }) (·.tachoCnt) =
    some 0 := by decide
/-- V41-3: a counter of 8 bits. -/
theorem test_tachoEdge_width :
    after (exec .tachoEdge { idle [] with tachoCnt := 0xFF, cfg := { Config.standard with tachoW := 8 } })
      (·.tachoCnt) = some 0 := by decide
/-- V41-4. -/
theorem test_drain : after (exec .drain { idle [] with tachoCnt := 30 }) (fun t => (t.pulses, t.tachoCnt)) =
    some (30, 0) := by decide
/-- V42-12: a pass that does not fire changes nothing. -/
theorem test_loopPass_early : after (exec (.loopPass 2999) (idle [])) id = some (idle []) := by decide
/-- V42-14: the tick first, then the blink. -/
theorem test_loopPass_tick_and_blink :
    after (exec (.loopPass 3000) { idle [] with blinkReq := true })
      (fun t => (t.deadline, t.indOut, t.indPhase, t.blinkReq)) =
      some (6000, true, .holding, true) := by decide
/-- V42-13. -/
theorem test_measTick : after (exec (.measTick 3000) { idle [] with tachoCnt := 30 })
      (fun t => (cells t, t.tachoCnt, t.deadline)) =
    some ([(3, 0x0A#8), (4, 0x58#8), (5, 0x02#8)], 0, 6000) := by decide
/-- The row of 65535 pulses. -/
theorem test_measTick_truncates :
    after (exec (.measTick 3000) { idle [] with tachoCnt := 65535 }) cells =
      some [(3, 0x55#8), (4, 0xEC#8), (5, 0xFF#8)] := by decide
/-- V42-18. -/
theorem test_calIdle : after (exec .calIdle { idle [] with pwmLevel := 177#8, pulses := 30 }) (·.pwmLevel) =
    some 177#8 := by decide
/-- V42-20. -/
theorem test_calStop :
    after (exec .calStop { State.reset with pwmLevel := 128#8 }) (fun t => (cells t, t.pwmLevel, t.calState)) =
      some ([(0, 0x01#8)], 0#8, .stopping) := by decide
/-- V42-21: the rpm is ignored. -/
theorem test_calToRamp :
    after (exec .calToRamp { stopping [(0, 1#8)] with pulses := 45 }) (fun t => (cells t, t.calState)) =
      some ([(0, 1#8)], .ramping) := by decide
/-- V42-24. -/
theorem test_calSuccess :
    after (exec .calSuccess (ramping 125#8 12 [(0, 1#8)])) (fun t => (cells t, t.pwmLevel, t.calState)) =
      some ([(2, 130#8)], 0#8, .idle) := by decide
/-- V42-27: the floor saturates. -/
theorem test_calSuccess_saturates :
    after (exec .calSuccess (ramping 255#8 11 [(0, 1#8)])) cells = some [(2, 0xFF#8)] := by decide
/-- V42-25: 200 is not above 200. -/
theorem test_calRamp : after (exec .calRamp (ramping 120#8 10 [(0, 1#8)])) (fun t => (cells t, t.pwmLevel)) =
    some ([(0, 1#8)], 125#8) := by decide
/-- V42-28: the floor is kept. -/
theorem test_calFail :
    after (exec .calFail (ramping 255#8 10 [(0, 1#8), (2, 0x40#8)])) (fun t => (cells t, t.pwmLevel, t.calState)) =
      some ([(2, 0x40#8)], 0#8, .idle) := by decide
/-- The example of R131. -/
theorem test_applyLevel : after (exec (.applyLevel 0#8) { idle [] with pwmLevel := 9#8 }) State.pwmOut =
    some 0#8 := by decide
/-- The example of R140. -/
theorem test_indAssert :
    after (exec .indAssert { idle [] with blinkReq := true }) (fun t => (t.indOut, t.indPhase, t.blinkReq)) =
      some (true, .holding, true) := by decide
/-- V44-2. -/
theorem test_indRelease :
    after (exec .indRelease holding) (fun t => (t.indOut, t.indPhase, t.blinkReq)) =
      some (false, .free, false) := by decide
/-- V70-3. -/
theorem test_reset_wraps : after (exec (.reset 0xFFFFFFFF) (ramping 5#8 1 [(0, 1#8)]))
      (fun t => (cells t, t.calState, t.deadline)) = some ([], .stopRequested, 2999) := by decide
/-- V70-1: RESET at the time 0 is the machine's first state. -/
theorem test_reset_zero : after (exec (.reset 0) { State.reset with ptr := 9#8, readData := 1#8 }) id =
    some State.reset := by decide
/-- V42-16: inside the hold a pass is not enabled. -/
theorem test_pass_while_holding : after (exec (.loopPass 3000) holding) id = some holding := by decide
/-- One step serves the first request and leaves the rest. -/
theorem test_step_order :
    after (step { idle [(0, 1#8)] with pending := [.readByte, .edge] }) (fun t => (t.readData, t.pending)) =
      some (1#8, [.edge]) := by decide
/-- RDREG expands to a pointer write and a read transaction (R73). -/
theorem test_rdReg_script : scheduleOf (rdRegScript 0x01#8 2) = [.burst [0x01#8], .readByte, .readByte] := by decide
/-- A word placed for the next step runs first, and the next step begins between whole operations again. -/
theorem test_placed_word :
    after (step ({ State.reset with pending := [.edge] }.withFetchWord 16 0b0000001110011001))
      (fun t => (cells t, t.ptr, t.inner, t.pending)) = some ([(3, 0x99#8)], 3#8, none, [.edge]) := by decide
/-- IND_ASSERT is no request of its own: the pass has performed it (R67, R140). -/
theorem test_ia_script : scheduleOf [.w [0x01#8], .p 5, .ia, .ir] = [.burst [0x01#8], .pass 5, .release] := by decide
/-- R102: an edge in a window stays in it, whatever is served before the tick that drains it. -/
theorem test_window_keeps_its_edge :
    after (step { idle [] with tachoCnt := 1, deadline := 6000, pending := [.pass 3000] }) (·.tachoCnt) =
      some 1 := by decide
/-- R52, R53: a pass performs its tick, drain included, in one step. -/
theorem test_step_pass_ticks :
    after (step { idle [] with tachoCnt := 30, pending := [.pass 3000, .edge] })
      (fun t => (t.pulses, t.tachoCnt, t.deadline, t.pending)) = some (30, 0, 6000, [.edge]) := by decide

/-! ### Witnesses: the hypotheses of the statements can be met -/

theorem witness_WrStatus : (idle []).ptr = 0x00#8 ∧ (idle []).calActive = false ∧ (idle []).calArmed = false ∧
    State.reset.ptr = 0x00#8 ∧ State.reset.calArmed = true := by decide
theorem witness_WrSpeed : { idle [] with ptr := 1#8 }.ptr = 0x01#8 ∧
    { idle [] with ptr := 1#8 }.calActive = false ∧ { idle [] with ptr := 1#8 }.calArmed = false ∧
    { State.reset with ptr := 1#8 }.ptr = 0x01#8 ∧ { State.reset with ptr := 1#8 }.calArmed = true := by decide
theorem witness_WrFloor : { idle [] with ptr := 2#8 }.ptr = 0x02#8 ∧
    { idle [] with ptr := 2#8 }.calActive = false ∧ { idle [] with ptr := 2#8 }.calArmed = false ∧
    { State.reset with ptr := 2#8 }.ptr = 0x02#8 ∧ { State.reset with ptr := 2#8 }.calArmed = true := by decide
theorem witness_TelemetryWrites :
    (Instr.wrRps 1#8 = .wrRps 1#8 ∧ { idle [] with ptr := 3#8 }.ptr = 0x03#8 ∧ 3 = 3) ∧
    (Instr.wrRpmLo 1#8 = .wrRpmLo 1#8 ∧ { idle [] with ptr := 4#8 }.ptr = 0x04#8 ∧ 4 = 4) ∧
    (Instr.wrRpmHi 1#8 = .wrRpmHi 1#8 ∧ { idle [] with ptr := 5#8 }.ptr = 0x05#8 ∧ 5 = 5) := by decide
theorem witness_Rejected : ([] : List Byte).length = 0 ∧
    State.reset.cfg.rxbufN < (List.replicate 17 0#8).length := by decide
theorem witness_WriteBurst : ([] : List Byte).length + 1 ≤ State.reset.cfg.rxbufN ∧
    (List.replicate 15 0#8).length + 1 ≤ State.reset.cfg.rxbufN := by decide
theorem witness_OutOfRange : 6 ≤ (6#8 : Byte).toNat ∧ 6 ≤ (255#8 : Byte).toNat := by decide
theorem witness_PointerWraps :
    (∀ i ∈ [Instr.read, .wrData 0#8, .read, .read, .read, .read], i.isByteOp = true) ∧
    [Instr.read, .wrData 0#8, .read, .read, .read, .read].length = 6 ∧
    { State.reset with ptr := 5#8 }.ptr.toNat < 6 ∧ 6 ≤ { State.reset with ptr := 6#8 }.ptr.toNat := by decide
theorem witness_Lockout : State.reset.locked = true ∧ (Instr.writeBurst [1#8, 2#8]).agent = .bus ∧
    exec (.writeBurst [1#8, 2#8]) State.reset = .next { State.reset with ptr := 2#8, blinkReq := true } ∧
    2 ≤ State.reset.cfg.rxbufN := ⟨rfl, rfl, rfl, by decide⟩
theorem witness_SpeedThenFloor : (idle []).locked = false ∧ 3 ≤ (idle []).cfg.rxbufN := by decide
theorem witness_BusRequests : holding.inner = none ∧
    { holding with pending := [.burst [1#8]] }.pending = [.burst [1#8]] ∧
    { holding with pending := [.readByte] }.pending = [.readByte] := by decide
theorem witness_LevelProperties : (1#8 : Byte).toNat ≤ (2#8 : Byte).toNat ∧ 1 ≤ (1#8 : Byte).toNat := by decide
theorem witness_ApplyLevel : (idle []).locked = false ∧ State.reset.locked = true := by decide
theorem witness_Drain : (idle []).indPhase = .free := by decide
/-- A tick, an edge and a tick that is due, in an Idle block. -/
def windowStart : State := { idle [] with pending := [.pass 3000, .edge, .pass 6000] }
theorem witness_Window : windowStart.inner = none ∧
    windowStart.pending = .pass 3000 :: [.edge, .pass 6000] ∧ tickDue 3000 windowStart = true ∧
    ∃ s u, step windowStart = .next s ∧ Run (fun _ => True) s 0 1 u ∧ u.pending = .pass 6000 :: [] ∧
      tickDue 6000 u = true :=
  ⟨rfl, rfl, by decide, { loopPass 3000 windowStart with pending := [.edge, .pass 6000] },
    { loopPass 3000 windowStart with pending := [.pass 6000], tachoCnt := 1 }, rfl,
    .edge (.start trivial) rfl rfl trivial, rfl, by decide⟩
theorem witness_Window_reset : { State.reset with pending := [.reset 0, .pass 3000] }.inner = none ∧
    ∃ s, step { State.reset with pending := [.reset 0, .pass 3000] } = .next s ∧
    Run (fun _ => True) s 0 0 s ∧ s.pending = .pass 3000 :: [] ∧ tickDue 3000 s = true :=
  ⟨rfl, { State.reset with pending := [.pass 3000] }, rfl, .start trivial, rfl, by decide⟩
theorem witness_CounterMoves : (∃ t, step { idle [] with pending := [.edge] } = .next t) ∧
    (∃ t, step { idle [] with pending := [.pass 3000] } = .next t ∧ t.tachoCnt = 0) ∧
    (∃ t, step ((idle []).enter .calStep) = .next t) := ⟨⟨_, rfl⟩, ⟨_, rfl, rfl⟩, ⟨_, rfl⟩⟩
/-- The level moves by a write, by a tick of a calibration and by RESET. -/
theorem witness_LevelMoves :
    (idle []).inner = none ∧
    after (step { idle [] with pending := [.burst [1#8, 9#8]] }) (·.pwmLevel) = some 9#8 ∧
    after (step { ramping 5#8 0 [] with pending := [.pass 3000] }) (·.pwmLevel) = some 10#8 ∧
    after (step { ramping 5#8 0 [] with pending := [.reset 0] }) (·.pwmLevel) = some 0#8 := by decide
theorem witness_Comparator : 1 ≤ 32 ∧ -((2 ^ (32 - 1) : Nat) : Int) ≤ 0 - 1 ∧ (0 : Int) - 1 < ((2 ^ (32 - 1) : Nat) : Int) ∧
    ((2 ^ (32 - 1) : Nat) : Int) ≤ 0x80000000 - 0 ∧ (0x80000000 : Int) - 0 < ((2 ^ 32 : Nat) : Int) ∧
    3000 < 2 ^ (32 - 1) ∧ -((3000 : Nat) : Int) ≤ 0 - 3000 ∧ (0 : Int) - 3000 < 0 := by decide
theorem witness_LoopPass : (idle []).indPhase = .free ∧ (idle []).blinkReq = false ∧
    elapsed 32 3000 (idle []).deadline = true ∧ elapsed 32 2999 (idle []).deadline = false ∧
    { idle [] with blinkReq := true }.blinkReq = true := by decide
theorem witness_Hold : holding.indPhase = .holding ∧ (Instr.loopPass 0).agent = .seq := by decide
theorem witness_MeasTick : (idle []).indPhase = .free ∧
    elapsed (idle []).cfg.timeW 3000 (idle []).deadline = true := by decide
theorem witness_tickDue : tickDue 3000 (idle []) = true := by decide
theorem witness_NextTick : Config.standard.wf ∧ tickDue 3000 (idle []) = true ∧ (idle []).blinkReq = false ∧
    2999 < 2 ^ (32 - 1) + Config.standard.periodMs ∧ 3000 < 2 ^ (32 - 1) + Config.standard.periodMs := by decide
theorem witness_Telemetry : (3 = 3 ∨ 3 = 4 ∨ 3 = 5) ∧
    exec (.loopPass 2999) (idle []) = .next (idle []) := ⟨.inl rfl, rfl⟩
theorem witness_CalStop : State.reset.indPhase = .free ∧ State.reset.calActive = false ∧
    State.reset.calArmed = true := by decide
theorem witness_CalToRamp : (stopping []).indPhase = .free ∧ (stopping []).calActive = true ∧
    (stopping []).calArmed = true := by decide
theorem witness_CalSuccess : (ramping 0#8 11 []).indPhase = .free ∧ (ramping 0#8 11 []).calActive = true ∧
    (ramping 0#8 11 []).calArmed = false ∧
    (ramping 0#8 11 []).pulses * 60 / (ramping 0#8 11 []).cfg.periodS > 200 := by decide
theorem witness_CalRamp : (ramping 254#8 10 []).indPhase = .free ∧ (ramping 254#8 10 []).calActive = true ∧
    (ramping 254#8 10 []).calArmed = false ∧
    (ramping 254#8 10 []).pulses * 60 / (ramping 254#8 10 []).cfg.periodS ≤ 200 ∧
    (ramping 254#8 10 []).pwmLevel.toNat < 255 := by decide
theorem witness_CalFail : (ramping 255#8 10 []).indPhase = .free ∧ (ramping 255#8 10 []).calActive = true ∧
    (ramping 255#8 10 []).calArmed = false ∧
    (ramping 255#8 10 []).pulses * 60 / (ramping 255#8 10 []).cfg.periodS ≤ 200 ∧
    (ramping 255#8 10 []).pwmLevel.toNat = 255 := by decide

/-- Steps one after the other, each an edge or a tick that is due and each leaving the block LOCKED, with the
ticks and the edges counted. -/
def lockedSteps : Nat → State → Option (Nat × Nat × State)
  | 0, s => if s.locked then some (0, 0, s) else none
  | m + 1, s =>
    match lockedSteps m s with
    | none => none
    | some (k, n, t) =>
      match t.pending, step t with
      | .pass now :: _, .next u => if tickDue now t && u.locked then some (k + 1, n, u) else none
      | .edge :: _, .next u => if u.locked then some (k, n + 1, u) else none
      | _, _ => none

/-- Such steps make a run of the whole block. -/
theorem lockedSteps_run (s : State) (m k n : Nat) (u : State) (h : lockedSteps m s = some (k, n, u)) :
    Run (fun x => x.locked = true) s k n u := by
  induction m generalizing k n u with
  | zero =>
    unfold lockedSteps at h
    split at h
    · next hl => cases h; exact .start hl
    · cases h
  | succ m ih =>
    unfold lockedSteps at h
    split at h
    · cases h
    · next k' n' t ht =>
      split at h
      · next now rest v hp hs =>
        split at h
        · next hd =>
          cases h
          rw [Bool.and_eq_true] at hd
          exact .tick (ih _ _ _ ht) hp hd.1 hs hd.2
        · cases h
      · next rest v hp hs =>
        split at h
        · next hl => cases h; exact .edge (ih _ _ _ ht) hp hs hl
        · cases h
      · cases h

/-- The block after reset, asked for `k` passes at the ends of its periods, `n` edges and one pass more. -/
def calibrating (k n : Nat) : State :=
  { State.reset with
    pending := ((List.range k).map fun j => .pass (3000 * (j + 1))) ++ List.replicate n .edge ++
      [.pass (3000 * (k + 1))] }

/-- Runs from reset that stay LOCKED, of 0, 1, 2, 52 and 53 ticks, each with a further tick due at its end: with
10 edges in its window the rpm is 200, not above 200, and with 11 it is 220. -/
theorem witness_Calibration :
    ∀ k ∈ [0, 1, 2, 52, 53], ∀ n ∈ [10, 11],
      (calibrating k n).inner = none ∧ (calibrating k n).calState = .stopRequested ∧
      ∃ u, Run (fun x => x.locked = true) (calibrating k n) k n u ∧
        (u.tachoCnt * 60 / u.cfg.periodS > 200 ↔ n = 11) ∧
        ∃ now rest, u.pending = .pass now :: rest ∧ tickDue now u = true := by
  intro k hk n hn
  refine ⟨rfl, rfl, ?_⟩
  have key : ∀ k ∈ [0, 1, 2, 52, 53], ∀ n ∈ [10, 11],
      (lockedSteps (k + n) (calibrating k n)).any (fun r =>
        decide (r.1 = k ∧ r.2.1 = n ∧ (r.2.2.tachoCnt * 60 / r.2.2.cfg.periodS > 200 ↔ n = 11)) &&
        match r.2.2.pending with
        | .pass now :: _ => tickDue now r.2.2
        | _ => false) = true := by decide
  have := key k hk n hn
  cases hu : lockedSteps (k + n) (calibrating k n) with
  | none => rw [hu] at this; cases this
  | some r =>
    obtain ⟨k', n', u⟩ := r
    rw [hu] at this
    simp only [Option.any_some, Bool.and_eq_true, decide_eq_true_eq] at this
    obtain ⟨⟨rfl, rfl, hr⟩, hd⟩ := this
    refine ⟨u, lockedSteps_run _ _ _ _ _ hu, hr, ?_⟩
    split at hd
    · next now rest hp => exact ⟨now, rest, hp, hd⟩
    · cases hd
theorem witness_Lockout_left : ∃ t, (ramping 0#8 11 []).locked = true ∧
    exec .calSuccess (ramping 0#8 11 []) = .next t ∧ t.locked = false :=
  ⟨calSuccess (ramping 0#8 11 []), by decide, rfl, by decide⟩
theorem witness_Lockout_entered : ∃ t, (idle []).locked = false ∧
    exec (.wrStatus 1#8) (idle []) = .next t ∧ t.locked = true :=
  ⟨wrStatus 1#8 (idle []), by decide, rfl, by decide⟩
theorem witness_FanStopped : ∃ t, { ramping 0#8 0 [] with tachoCnt := 11 }.locked = true ∧
    exec (.loopPass 3000) { ramping 0#8 0 [] with tachoCnt := 11 } = .next t ∧ t.locked = false :=
  ⟨loopPass 3000 { ramping 0#8 0 [] with tachoCnt := 11 }, by decide, rfl, by decide⟩
theorem witness_IndAssert : { idle [] with blinkReq := true }.indPhase = .free ∧
    { idle [] with blinkReq := true }.blinkReq = true := by decide
theorem witness_IndRelease : holding.indPhase = .holding ∧ (idle []).indPhase = .free := by decide
theorem witness_BlinksMerge : holding.indPhase = .holding ∧ ∃ t u,
    exec (.writeBurst [2#8]) holding = .next t ∧ exec .indRelease t = .next u ∧
    elapsed u.cfg.timeW 2999 u.deadline = false :=
  ⟨rfl, writeBurst [2#8] holding, indRelease (writeBurst [2#8] holding), rfl, rfl, by decide⟩
/-- The invariant holds of a block in Ramping, and a step leads on from it. -/
theorem witness_Invariant : { ramping 5#8 0 [(0, 1#8)] with pending := [.edge] }.Inv ∧
    ∃ t, step { ramping 5#8 0 [(0, 1#8)] with pending := [.edge] } = .next t :=
  ⟨by constructor <;> decide, _, rfl⟩
theorem witness_StepRuns : State.reset.inner = none ∧ State.reset.pending = [] ∧
    { State.reset with pending := [.edge] }.pending = .edge :: [] ∧
    decode Config.standard (State.reset.frameOf .edge) = .ok .tachoEdge ∧
    (State.reset.enter .calStep).inner = some .calStep ∧
    decode Config.standard ((State.reset.enter .calStep).innerFrame .calStep) = .ok .calStop := by decide
theorem witness_WholeOperations : { State.reset with pending := [.pass 3000] }.inner = none ∧
    { State.reset with pending := [.pass 3000] }.pending = .pass 3000 :: [] ∧
    fetch { State.reset with pending := [.edge] } = some ({ line := .evTacho, bytes := [] }, State.reset) ∧
    decode State.reset.cfg { line := .evTacho, bytes := [] } = .ok .tachoEdge := by decide
theorem witness_StepsEnd : ∃ t, step (State.reset.enter .calStep) = .next t := ⟨_, rfl⟩
theorem witness_Agents : exec .tachoEdge State.reset = .next (tachoEdge State.reset) ∧
    exec .read State.reset = .next (readRequest State.reset) ∧
    exec .drain State.reset = .next (drain State.reset) := ⟨rfl, rfl, rfl⟩
theorem witness_Unselected : enabled .indRelease State.reset = false := by decide
theorem witness_WellFormed : (Instr.loopPass 0xFFFFFFFF).wf Config.standard = true ∧
    (Instr.wrNone 6#8 0#8).wf Config.standard = true ∧
    (Instr.writeBurst (List.replicate 16 0#8)).wf Config.standard = true ∧
    (Instr.wrReject []).wf Config.standard = true := by decide

end Sys2Proof.Tests
end

/-!
PROOFS. The machine's own state over a step: which operation a request is, what keeps the invariant of the
reachable states, what the indicator hold blocks, and what moves the PWM level.
-/

namespace Sys2Proof.Machine

open Sys2Proof

/-! ### The operation a request is -/

/-- The whole operation a request asks for: what its decode word reads as (R60 to R67). -/
def Request.instr (c : Config) : Request → Instr
  | .burst b => decodeBurst c b
  | .readByte => .read
  | .edge => .tachoEdge
  | .pass now => .loopPass (trunc c.timeW now)
  | .release => .indRelease
  | .reset now => .reset (trunc c.timeW now)

theorem decode_frameOf (s : State) (r : Request) :
    decode s.cfg (s.frameOf r) = .ok (r.instr s.cfg) := by
  cases r with
  | pass now => exact decodeTime_sample s.cfg .lp .loopPass now
  | reset now => exact decodeTime_sample s.cfg .rs .reset now
  | burst _ => rfl
  | readByte => rfl
  | edge => rfl
  | release => rfl

/-- Between whole operations a step is nothing, or it serves the first request. -/
theorem step_between_cases (s t : State) (hi : s.inner = none) (h : step s = .next t) :
    t = s ∨ ∃ r rest, s.pending = r :: rest ∧ exec (r.instr s.cfg) (s.dropRequest rest) = .next t := by
  obtain ⟨_, rfl⟩ | ⟨f, u, i, hf, hd, he⟩ := step_next_cases s t h
  · exact .inl rfl
  · right
    obtain ⟨q, hq, _⟩ | ⟨_, _, hn⟩ | ⟨r, rest, _, hp, hr⟩ := fetch_cases s
    · rw [hi] at hq; cases hq
    · rw [hn] at hf; cases hf
    · rw [hr] at hf
      cases hf
      have hd' := decode_frameOf s r
      rw [dropRequest_cfg, hd'] at hd
      cases hd
      exact ⟨r, rest, hp, he⟩

/-! ### The two calibration flags -/

theorem calState_idle_iff (s : State) :
    s.calState = .idle ↔ s.calActive = false ∧ s.calArmed = false := by
  unfold State.calState
  cases s.calActive <;> cases s.calArmed <;> decide

theorem calState_stopping_iff (s : State) :
    s.calState = .stopping ↔ s.calActive = true ∧ s.calArmed = true := by
  unfold State.calState
  cases s.calActive <;> cases s.calArmed <;> decide

theorem calState_ramping_iff (s : State) :
    s.calState = .ramping ↔ s.calActive = true ∧ s.calArmed = false := by
  unfold State.calState
  cases s.calActive <;> cases s.calArmed <;> decide

theorem locked_false_iff (s : State) : s.locked = false ↔ s.calActive = false ∧ s.calArmed = false := by
  simp [State.locked]

/-- The lockout is off in Idle only (R30). -/
theorem locked_false_iff_idle (s : State) : s.locked = false ↔ s.calState = .idle :=
  (locked_false_iff s).trans (calState_idle_iff s).symm

/-! ### Status bit 0 -/

theorem and_one_eq (d : Byte) : d &&& 0x01#8 = if d.getLsbD 0 then 0x01#8 else 0x00#8 := by
  rw [BitVec.and_one_eq_setWidth_ofBool_getLsbD]
  cases d.getLsbD 0 <;> rfl

/-- With bits 7:1 clear, setting bit 0 leaves 0x01 (R41, R43). -/
theorem or_one_of_and_FE (v : Byte) (h : v &&& 0xFE#8 = 0x00#8) : v ||| 0x01#8 = 0x01#8 := by
  have hbit : v ||| 0x01#8 = (v &&& 0xFE#8) ||| 0x01#8 := by
    ext i hi
    interval_cases i <;> simp
  rw [hbit, h]
  rfl

/-! ### The cell operations in and outside the lockout -/

section
variable {s : State}

theorem wrStatus_of_locked (d : Byte) (hl : s.locked = true) : wrStatus d s = s := if_pos hl

theorem wrSpeed_of_locked (d : Byte) (hl : s.locked = true) : wrSpeed d s = s := if_pos hl

theorem wrFloor_of_locked (d : Byte) (hl : s.locked = true) : wrFloor d s = s := if_pos hl

theorem wrStatus_of_unlocked (d : Byte) (hl : s.locked = false) :
    wrStatus d s = { s.setReg 0 (d &&& 0x01#8) with calArmed := d.getLsbD 0 } := by
  obtain ⟨_, harmed⟩ := (locked_false_iff s).mp hl
  unfold wrStatus
  rw [if_neg (Bool.eq_false_iff.mp hl)]
  cases d.getLsbD 0
  · exact congrArg (fun a => { s.setReg 0 (d &&& 0x01#8) with calArmed := a }) harmed
  · rfl

theorem wrSpeed_of_unlocked (d : Byte) (hl : s.locked = false) :
    wrSpeed d s = applyLevel (level d (s.reg 2)) (s.setReg 1 d) := by
  unfold wrSpeed
  rw [if_neg (Bool.eq_false_iff.mp hl)]
  dsimp only
  rw [reg_setReg_other s 1 2 d (by decide)]

theorem wrFloor_of_unlocked (d : Byte) (hl : s.locked = false) :
    wrFloor d s = applyLevel (level (s.reg 1) d) (s.setReg 2 d) := by
  unfold wrFloor
  rw [if_neg (Bool.eq_false_iff.mp hl)]
  dsimp only
  rw [reg_setReg_other s 2 1 d (by decide)]

end

/-! ### The updates the invariant is kept by -/

section
variable {s : State}

/-- A write to a cell other than Status is no part of the invariant but for the canonical form. -/
theorem setReg_keeps_inv (h : s.Inv) (i : Nat) (v : Byte) (h0 : 0 ≠ i) (hi : i < nreg) :
    (s.setReg i v).Inv := by
  have hr : (s.setReg i v).reg 0 = s.reg 0 := reg_setReg_other s i 0 v h0
  exact { h with
    memory := Memory.wf_write _ _ _ hi h.memory
    status := by rw [hr]; exact h.status
    idle := by rw [hr]; exact h.idle
    active := by rw [hr]; exact h.active }

/-- Status, the two flags and the level written together: what the calibration machine's steps do, and what
R41 to R44 ask of the values written. -/
theorem setStatus_keeps_inv (h : s.Inv) (v : Byte) (armed active : Bool) (pwm : Byte)
    (hbits : v &&& 0xFE#8 = 0x00#8)
    (hidle : active = false ∧ armed = false → v = 0x00#8)
    (hactive : active = true → v = 0x01#8)
    (hstopping : active = true ∧ armed = true → pwm = 0x00#8)
    (hramping : active = true ∧ armed = false → pwm.toNat % 5 = 0) :
    { s.setReg 0 v with calArmed := armed, calActive := active, pwmLevel := pwm }.Inv := by
  have hr : { s.setReg 0 v with calArmed := armed, calActive := active, pwmLevel := pwm }.reg 0 = v :=
    reg_setReg_same s 0 v
  exact { h with
    memory := Memory.wf_write _ _ _ (by decide) h.memory
    status := by rw [hr]; exact hbits
    idle := fun hc => by rw [hr]; exact hidle ((calState_idle_iff _).mp hc)
    active := fun hc => by rw [hr]; exact hactive hc
    stopping := fun hc => hstopping ((calState_stopping_iff _).mp hc)
    ramping := fun hc => hramping ((calState_ramping_iff _).mp hc) }

/-- Outside the lockout the level is free: R44 speaks of Stopping and Ramping only. -/
theorem applyLevel_keeps_inv (h : s.Inv) (v : Byte) (hl : s.locked = false) : (applyLevel v s).Inv := by
  have ⟨hactive, _⟩ := (locked_false_iff s).mp hl
  have hna : ¬ (applyLevel v s).calActive = true := by rw [applyLevel_calActive, hactive]; decide
  exact { h with
    stopping := fun hc => absurd ((calState_stopping_iff _).mp hc).1 hna
    ramping := fun hc => absurd ((calState_ramping_iff _).mp hc).1 hna }

/-! ### The bus operations keep the invariant -/

theorem wrPtr_keeps_inv (h : s.Inv) (p : Byte) : (wrPtr p s).Inv := { h with }

theorem advancePtr_keeps_inv (h : s.Inv) : (advancePtr s).Inv := { h with }

theorem requestBlink_keeps_inv (h : s.Inv) : (requestBlink s).Inv :=
  { h with holdRequest := fun _ => rfl }

theorem readRequest_keeps_inv (h : s.Inv) : (readRequest s).Inv := { h with }

theorem wrStatus_keeps_inv (h : s.Inv) (d : Byte) : (wrStatus d s).Inv := by
  cases hl : s.locked with
  | true => rwa [wrStatus_of_locked d hl]
  | false =>
    obtain ⟨hactive, _⟩ := (locked_false_iff s).mp hl
    rw [wrStatus_of_unlocked d hl, and_one_eq]
    cases d.getLsbD 0 <;>
      exact setStatus_keeps_inv h _ _ s.calActive s.pwmLevel (by decide) (by simp) (by simp [hactive])
        (by simp [hactive]) (by simp [hactive])

theorem wrSpeed_keeps_inv (h : s.Inv) (d : Byte) : (wrSpeed d s).Inv := by
  cases hl : s.locked with
  | true => rwa [wrSpeed_of_locked d hl]
  | false =>
    rw [wrSpeed_of_unlocked d hl]
    exact applyLevel_keeps_inv (setReg_keeps_inv h 1 d (by decide) (by decide)) _ hl

theorem wrFloor_keeps_inv (h : s.Inv) (d : Byte) : (wrFloor d s).Inv := by
  cases hl : s.locked with
  | true => rwa [wrFloor_of_locked d hl]
  | false =>
    rw [wrFloor_of_unlocked d hl]
    exact applyLevel_keeps_inv (setReg_keeps_inv h 2 d (by decide) (by decide)) _ hl

theorem wrRps_keeps_inv (h : s.Inv) (d : Byte) : (wrRps d s).Inv :=
  setReg_keeps_inv h 3 d (by decide) (by decide)

theorem wrRpmLo_keeps_inv (h : s.Inv) (d : Byte) : (wrRpmLo d s).Inv :=
  setReg_keeps_inv h 4 d (by decide) (by decide)

theorem wrRpmHi_keeps_inv (h : s.Inv) (d : Byte) : (wrRpmHi d s).Inv :=
  setReg_keeps_inv h 5 d (by decide) (by decide)

theorem wrData_keeps_inv (h : s.Inv) (d : Byte) : (wrData d s).Inv := by
  refine advancePtr_keeps_inv ?_
  unfold cellByte
  split
  · exact wrStatus_keeps_inv h d
  · exact wrSpeed_keeps_inv h d
  · exact wrFloor_keeps_inv h d
  · exact wrRps_keeps_inv h d
  · exact wrRpmLo_keeps_inv h d
  · exact wrRpmHi_keeps_inv h d
  · exact h

theorem wrDataAll_keeps_inv (ds : List Byte) (h : s.Inv) : (wrDataAll ds s).Inv := by
  induction ds generalizing s with
  | nil => exact h
  | cons d ds ih => exact ih (wrData_keeps_inv h d)

theorem writeBurst_keeps_inv (h : s.Inv) (b : List Byte) : (writeBurst b s).Inv := by
  obtain ⟨_, hw⟩ | ⟨p, ds, _, _, hw⟩ := writeBurst_cases b s
  · rw [hw]
    exact h
  · rw [hw]
    exact requestBlink_keeps_inv (wrDataAll_keeps_inv ds (wrPtr_keeps_inv h p))

/-! ### The tachometer, the indicator and reset keep the invariant -/

theorem tachoEdge_keeps_inv (h : s.Inv) : (tachoEdge s).Inv := { h with tachoWidth := trunc_lt _ _ }

theorem drain_keeps_inv (h : s.Inv) : (drain s).Inv :=
  { h with tachoWidth := Nat.two_pow_pos _, pulsesWidth := h.tachoWidth }

theorem indAssert_keeps_inv (h : s.Inv) (hb : s.blinkReq = true) : (indAssert s).Inv :=
  { h with indicator := by simp, holdRequest := fun _ => hb }

theorem indRelease_keeps_inv (h : s.Inv) : (indRelease s).Inv :=
  { h with indicator := by simp, holdRequest := by simp }

/-- RESET meets the invariant whatever the state before it was. -/
theorem resetBlock_inv (now : Nat) (s : State) : (resetBlock now s).Inv where
  memory := rfl
  status := BitVec.zero_and
  idle := fun _ => rfl
  active := fun hc => by cases hc
  stopping := fun _ => rfl
  ramping := fun _ => rfl
  tachoWidth := Nat.two_pow_pos _
  pulsesWidth := Nat.two_pow_pos _
  deadlineWidth := trunc_lt _ _
  indicator := by simp [resetBlock]
  holdRequest := by simp [resetBlock]

/-! ### The calibration machine keeps the invariant -/

theorem calStop_keeps_inv (h : s.Inv) : (calStop s).Inv := by
  have hv := or_one_of_and_FE (s.reg 0) h.status
  exact setStatus_keeps_inv h (s.reg 0 ||| 0x01#8) s.calArmed true 0x00#8 (by rw [hv]; decide) (by simp)
    (fun _ => hv) (fun _ => rfl) (by simp)

/-- Stopping to Ramping: the level is 0, and so a multiple of 5 (R120). -/
theorem calToRamp_keeps_inv (h : s.Inv) (hc : s.calState = .stopping) : (calToRamp s).Inv := by
  obtain ⟨hactive, _⟩ := (calState_stopping_iff s).mp hc
  exact { h with
    idle := fun hi => by
      have hna : s.calActive = false := ((calState_idle_iff _).mp hi).1
      simp [hna] at hactive
    stopping := fun _ => h.stopping hc
    ramping := fun _ => congrArg (·.toNat % 5) (h.stopping hc) }

/-- The end of a calibration: Status bit 0 and the active flag cleared, the fan stopped (R121, R123). -/
theorem calEnd_keeps_inv (h : s.Inv) :
    { s.clearCalBit with pwmLevel := 0x00#8, calActive := false }.Inv := by
  have hv : s.reg 0 &&& 0xFE#8 = 0x00#8 := h.status
  exact setStatus_keeps_inv h (s.reg 0 &&& 0xFE#8) s.calArmed false 0x00#8 (by rw [hv]; rfl)
    (fun _ => hv) (by simp) (by simp) (by simp)

theorem calSuccess_keeps_inv (h : s.Inv) : (calSuccess s).Inv :=
  calEnd_keeps_inv (setReg_keeps_inv h 2 _ (by decide) (by decide))

theorem calFail_keeps_inv (h : s.Inv) : (calFail s).Inv := calEnd_keeps_inv h

/-- PWM_MAX is a multiple of 5, so that the saturated ramp stays on multiples of 5 (R44). -/
theorem satAdd_rampIncrement_mod_five (v : Byte) (h : v.toNat % 5 = 0) :
    (satAdd v rampIncrement).toNat % 5 = 0 := by
  have hs : (satAdd v rampIncrement).toNat = min (v.toNat + 5) 255 :=
    (BitVec.toNat_ofNat _ _).trans (Nat.mod_eq_of_lt (by simp only [rampIncrement, pwmMax]; omega))
  omega

theorem calRamp_keeps_inv (h : s.Inv) (hc : s.calState = .ramping) : (calRamp s).Inv := by
  obtain ⟨hactive, harmed⟩ := (calState_ramping_iff s).mp hc
  have hv := or_one_of_and_FE (s.reg 0) h.status
  exact setStatus_keeps_inv h (s.reg 0 ||| 0x01#8) s.calArmed s.calActive (satAdd s.pwmLevel rampIncrement)
    (by rw [hv]; decide) (by simp [hactive]) (fun _ => hv) (by simp [harmed])
    (fun _ => satAdd_rampIncrement_mod_five _ (h.ramping hc))

theorem calStep_keeps_inv (h : s.Inv) : (calStep s).Inv := by
  unfold calStep
  split
  · exact h
  · exact calStop_keeps_inv h
  · next hc => exact calToRamp_keeps_inv h hc
  · next hc =>
    split
    · exact calSuccess_keeps_inv h
    · split
      · exact calRamp_keeps_inv h hc
      · exact calFail_keeps_inv h

/-! ### A tick and a pass keep the invariant -/

theorem publish_keeps_inv (h : s.Inv) : (publish s).Inv :=
  have h3 := setReg_keeps_inv h 3 (trunc8 (rpsOf s.cfg s.pulses)) (by decide) (by decide)
  have h4 := setReg_keeps_inv h3 4 (trunc8 s.rpm) (by decide) (by decide)
  setReg_keeps_inv h4 5 (trunc8 (s.rpm / 256)) (by decide) (by decide)

theorem rearm_keeps_inv (h : s.Inv) (now : Nat) : (rearm now s).Inv :=
  { h with deadlineWidth := trunc_lt _ _ }

theorem measTick_keeps_inv (h : s.Inv) (now : Nat) : (measTick now s).Inv :=
  calStep_keeps_inv (rearm_keeps_inv (publish_keeps_inv (drain_keeps_inv h)) now)

/-- The indicator service at the end of a pass (R110, R140). -/
theorem indService_keeps_inv (h : s.Inv) : (if s.blinkReq then indAssert s else s).Inv := by
  split
  · next hb => exact indAssert_keeps_inv h hb
  · exact h

theorem loopPass_keeps_inv (h : s.Inv) (now : Nat) : (loopPass now s).Inv := by
  refine indService_keeps_inv ?_
  split
  · exact measTick_keeps_inv h now
  · exact h

/-! ### Every operation and every step keep the invariant -/

/-- The effect of an operation, where the state selects it, keeps the invariant. -/
theorem effect_keeps_inv (h : s.Inv) (i : Instr) (he : enabled i s = true) : (effect i s).Inv := by
  cases i with
  | writeBurst b => exact writeBurst_keeps_inv h b
  | wrPtr p => exact wrPtr_keeps_inv h p
  | wrData d => exact wrData_keeps_inv h d
  | wrReject b => exact h
  | wrStatus d => exact wrStatus_keeps_inv h d
  | wrSpeed d => exact wrSpeed_keeps_inv h d
  | wrFloor d => exact wrFloor_keeps_inv h d
  | wrRps d => exact wrRps_keeps_inv h d
  | wrRpmLo d => exact wrRpmLo_keeps_inv h d
  | wrRpmHi d => exact wrRpmHi_keeps_inv h d
  | wrNone p d => exact h
  | read => exact readRequest_keeps_inv h
  | tachoEdge => exact tachoEdge_keeps_inv h
  | drain => exact drain_keeps_inv h
  | loopPass now => exact loopPass_keeps_inv h now
  | measTick now => exact measTick_keeps_inv h now
  | calIdle => exact h
  | calStop => exact calStop_keeps_inv h
  | calToRamp =>
    simp only [enabled, Bool.and_eq_true, beq_iff_eq] at he
    obtain ⟨_, hc⟩ := he
    exact calToRamp_keeps_inv h hc
  | calSuccess => exact calSuccess_keeps_inv h
  | calRamp =>
    simp only [enabled, Bool.and_eq_true, beq_iff_eq] at he
    obtain ⟨⟨⟨_, hc⟩, _⟩, _⟩ := he
    exact calRamp_keeps_inv h hc
  | calFail => exact calFail_keeps_inv h
  | applyLevel v => exact applyLevel_keeps_inv h v (by simpa [enabled] using he)
  | indAssert =>
    simp only [enabled, Bool.and_eq_true] at he
    obtain ⟨_, hb⟩ := he
    exact indAssert_keeps_inv h hb
  | indRelease => exact indRelease_keeps_inv h
  | reset now => exact resetBlock_inv now s

theorem exec_keeps_inv (h : s.Inv) {i : Instr} {t : State} (hx : exec i s = .next t) : t.Inv := by
  obtain ⟨he, rfl⟩ | ⟨_, rfl⟩ := exec_next_cases i s t hx
  · exact effect_keeps_inv h i he
  · exact h

/-- Neither the requests nor the place a step begins at are part of the invariant. -/
theorem fetch_keeps_inv (h : s.Inv) {f : Frame} {u : State} (hf : fetch s = some (f, u)) : u.Inv := by
  obtain ⟨q, _, hq⟩ | ⟨_, _, hn⟩ | ⟨r, rest, _, _, hr⟩ := fetch_cases s
  · rw [hq] at hf; cases hf; exact { h with }
  · rw [hn] at hf; cases hf
  · rw [hr] at hf; cases hf; exact { h with }

end

/-- Settles O45: the operation a step runs keeps the invariant of the state it is fetched with. -/
theorem everyStepKeepsTheInvariant : Obligations.EveryStepKeepsTheInvariant := by
  intro s t h hs
  obtain ⟨_, rfl⟩ | ⟨f, u, i, hf, _, hx⟩ := step_next_cases s t hs
  · exact h
  · exact exec_keeps_inv (fetch_keeps_inv h hf) hx

/-! ### The indicator hold -/

/-- Every operation of the sequencer but the end of the hold asks for the sequencer to be free (R36, R110). -/
theorem seqFree_of_enabled {i : Instr} {s : State} (ha : i.agent = .seq) (hi : i ≠ .indRelease)
    (he : enabled i s = true) : s.seqFree = true := by
  cases i with
  | drain => exact he
  | loopPass _ => exact he
  | indRelease => exact absurd rfl hi
  | measTick _ | calIdle | calStop | calToRamp | calSuccess | calRamp | calFail | indAssert =>
    simp only [enabled, Bool.and_eq_true, and_assoc] at he
    obtain ⟨hf, _⟩ := he
    exact hf
  | _ => cases ha

/-- Settles O24: in the hold the sequencer is not free, so that it takes no operation but IND_RELEASE. -/
theorem holdBlocksTheSequencer : Obligations.HoldBlocksTheSequencer := by
  intro i s hh ha
  rw [exec_eq_perform]
  split
  · next hi =>
    subst hi
    exact perform_of_enabled _ _ _ (by simp [enabled, hh])
  · next hi =>
    refine perform_of_disabled _ _ _ (Bool.eq_false_of_not_eq_true fun he => ?_)
    have hf := seqFree_of_enabled ha hi he
    simp [State.seqFree, hh] at hf

/-! ### What moves the PWM level -/

/-- The data bytes run one by one are the data bytes of the transaction. -/
theorem runOps_wrData (ds : List Byte) (s : State) :
    runOps (ds.map .wrData) s = .next (wrDataAll ds s) := by
  induction ds generalizing s with
  | nil => rfl
  | cons d ds ih => exact ih (wrData d s)

theorem wrStatus_pwmLevel (d : Byte) (s : State) : (wrStatus d s).pwmLevel = s.pwmLevel := by
  cases hl : s.locked with
  | true => rw [wrStatus_of_locked d hl]
  | false =>
    rw [wrStatus_of_unlocked d hl]
    rfl

/-- While LOCKED a data byte ends no lockout and moves no level (R30, R95). -/
theorem wrData_of_locked (d : Byte) (s : State) (hl : s.locked = true) :
    (wrData d s).locked = true ∧ (wrData d s).pwmLevel = s.pwmLevel := by
  have key : (cellByte d s).locked = true ∧ (cellByte d s).pwmLevel = s.pwmLevel := by
    unfold cellByte
    split
    · rw [wrStatus_of_locked d hl]
      exact ⟨hl, rfl⟩
    · rw [wrSpeed_of_locked d hl]
      exact ⟨hl, rfl⟩
    · rw [wrFloor_of_locked d hl]
      exact ⟨hl, rfl⟩
    all_goals exact ⟨hl, rfl⟩
  exact key

/-- Outside the lockout a data byte leaves the level, or the level is the remap of the cells as the byte left
them (R84, R85). -/
theorem wrData_level_of_unlocked (d : Byte) (s : State) (hl : s.locked = false) :
    (wrData d s).pwmLevel = s.pwmLevel ∨
    (wrData d s).pwmLevel = level ((wrData d s).reg 1) ((wrData d s).reg 2) := by
  have key : (cellByte d s).pwmLevel = s.pwmLevel ∨
      (cellByte d s).pwmLevel = level ((cellByte d s).reg 1) ((cellByte d s).reg 2) := by
    unfold cellByte
    split
    · exact .inl (wrStatus_pwmLevel d s)
    · right
      have h1 : (wrSpeed d s).reg 1 = d := by
        rw [wrSpeed_of_unlocked d hl]
        exact reg_setReg_same s 1 d
      have h2 : (wrSpeed d s).reg 2 = s.reg 2 := by
        rw [wrSpeed_of_unlocked d hl]
        exact reg_setReg_other s 1 2 d (by decide)
      rw [h1, h2, wrSpeed_of_unlocked d hl, applyLevel_pwmLevel]
    · right
      have h1 : (wrFloor d s).reg 1 = s.reg 1 := by
        rw [wrFloor_of_unlocked d hl]
        exact reg_setReg_other s 2 1 d (by decide)
      have h2 : (wrFloor d s).reg 2 = d := by
        rw [wrFloor_of_unlocked d hl]
        exact reg_setReg_same s 2 d
      rw [h1, h2, wrFloor_of_unlocked d hl, applyLevel_pwmLevel]
    all_goals exact .inl rfl
  exact key

/-- What the data bytes of a transaction can do to the level: nothing, or outside the lockout the remap of the
cells as one of them left them. -/
theorem wrDataAll_level_cases (ds : List Byte) (s : State) :
    (wrDataAll ds s).pwmLevel = s.pwmLevel ∨
    s.locked = false ∧ ∃ as bs, ds = as ++ bs ∧ as ≠ [] ∧
      (wrDataAll ds s).pwmLevel = level ((wrDataAll as s).reg 1) ((wrDataAll as s).reg 2) := by
  induction ds generalizing s with
  | nil => exact .inl rfl
  | cons d ds ih =>
    cases hl : s.locked with
    | true =>
      obtain ⟨hl', hfirst⟩ := wrData_of_locked d s hl
      obtain hrest | ⟨hu, _⟩ := ih (wrData d s)
      · exact .inl (hrest.trans hfirst)
      · exact absurd (hl'.symm.trans hu) (by decide)
    | false =>
      obtain hrest | ⟨_, as, bs, hds, _, hlevel⟩ := ih (wrData d s)
      · obtain hfirst | hlevel := wrData_level_of_unlocked d s hl
        · exact .inl (hrest.trans hfirst)
        · exact .inr ⟨rfl, [d], ds, rfl, List.cons_ne_nil _ _, hrest.trans hlevel⟩
      · exact .inr ⟨rfl, d :: as, bs, congrArg (d :: ·) hds, List.cons_ne_nil _ _, hlevel⟩

/-- A tick that moves the level is a tick of a calibration: in Idle its calibration step is CAL_IDLE (R118). -/
theorem measTick_level_of_unlocked (now : Nat) (s : State) (hl : s.locked = false) :
    (measTick now s).pwmLevel = s.pwmLevel := by
  have hc : (rearm now (publish (drain s))).calState = .idle := (locked_false_iff_idle s).mp hl
  unfold measTick calStep
  rw [hc]
  rfl

/-- A pass that moves the level ticks, and does so while LOCKED. -/
theorem locked_of_loopPass_level (now : Nat) (s : State) (h : (loopPass now s).pwmLevel ≠ s.pwmLevel) :
    elapsed s.cfg.timeW now s.deadline = true ∧ s.locked = true := by
  obtain ⟨t, htick, hnone, hpass⟩ := loopPass_cases now s
  have hlevel : (loopPass now s).pwmLevel = t.pwmLevel := by
    rw [hpass]
    split <;> rfl
  rw [hlevel] at h
  have he : elapsed s.cfg.timeW now s.deadline = true :=
    Bool.eq_true_of_not_eq_false fun he => h (congrArg State.pwmLevel (hnone he))
  refine ⟨he, Bool.eq_true_of_not_eq_false fun hl => h ?_⟩
  rw [htick he]
  exact measTick_level_of_unlocked now s hl

/-- A write transaction that moves the level is accepted, outside the lockout, and leaves the remap of the cells
as one of its data bytes left them. -/
theorem writeBurst_level_cases (b : List Byte) (s : State) (h : (writeBurst b s).pwmLevel ≠ s.pwmLevel) :
    ∃ p ds, b = p :: ds ∧ s.locked = false ∧
      ∃ as bs u, ds = as ++ bs ∧ as ≠ [] ∧ runOps (.wrPtr p :: as.map .wrData) s = .next u ∧
        (writeBurst b s).pwmLevel = level (u.reg 1) (u.reg 2) := by
  obtain ⟨_, hw⟩ | ⟨p, ds, hb, _, hw⟩ := writeBurst_cases b s
  · exact absurd (congrArg State.pwmLevel hw) h
  · rw [hw] at h ⊢
    obtain hsame | ⟨hl, as, bs, hds, hne, hlevel⟩ := wrDataAll_level_cases ds (wrPtr p s)
    · exact absurd hsame h
    · exact ⟨p, ds, hb, hl, as, bs, _, hds, hne, runOps_wrData as (wrPtr p s), hlevel⟩

/-- Settles O57: the request served is a write transaction, a pass or RESET, each taken from what its operation
can do to the level. -/
theorem levelMovesOnlyByWriteTickAndReset : Obligations.LevelMovesOnlyByWriteTickAndReset := by
  intro s t hi hs hmove
  obtain rfl | ⟨r, rest, hp, hx⟩ := step_between_cases s t hi hs
  · exact absurd rfl hmove
  · refine ⟨rest, ?_⟩
    obtain ⟨he, rfl⟩ | ⟨_, rfl⟩ := exec_next_cases _ _ t hx
    · cases r with
      | burst b =>
        left
        by_cases hb : 1 ≤ b.length ∧ b.length ≤ s.cfg.rxbufN
        · rw [Request.instr, decodeBurst, if_pos hb] at hmove ⊢
          obtain ⟨p, ds, rfl, hw⟩ := writeBurst_level_cases b (s.dropRequest rest) hmove
          exact ⟨p, ds, hp, hw⟩
        · rw [Request.instr, decodeBurst, if_neg hb] at hmove
          exact absurd rfl hmove
      | pass now =>
        right; left
        obtain ⟨hel, hl⟩ := locked_of_loopPass_level _ (s.dropRequest rest) hmove
        rw [dropRequest_cfg, dropRequest_deadline, elapsed_trunc] at hel
        exact ⟨now, hp, Bool.and_eq_true_iff.mpr ⟨he, hel⟩, hl⟩
      | reset r => exact .inr (.inr ⟨r, hp⟩)
      | readByte | edge | release => exact absurd rfl hmove
    · exact absurd rfl hmove

end Sys2Proof.Machine

/-!
PROOFS. The register file and who writes what: pointers outside the file, the telemetry a tick publishes, the
state each agent owns, and the whole operations a run consists of.
-/

namespace Sys2Proof.Machine

open Sys2Proof

/-! ### Pointers outside the register file -/

theorem adv_of_ge {p : Byte} (h : nreg ≤ p.toNat) : adv p = 0x00#8 := if_pos (Nat.le_succ_of_le h)

/-- Outside the register file a data byte is a WR_NONE (R82, R89). -/
theorem cellByte_of_ge (d : Byte) {s : State} (h : nreg ≤ s.ptr.toNat) : cellByte d s = s := by
  unfold nreg at h
  unfold cellByte
  split
  case h_7 => rfl
  all_goals omega

theorem wrData_of_ge (d : Byte) {s : State} (h : nreg ≤ s.ptr.toNat) :
    wrData d s = { s with ptr := 0x00#8 } := by
  unfold wrData advancePtr
  rw [cellByte_of_ge d h, adv_of_ge h]

theorem readRequest_of_ge {s : State} (h : nreg ≤ s.ptr.toNat) :
    readRequest s = { s with ptr := 0x00#8, readData := 0x00#8 } := by
  unfold readRequest advancePtr
  rw [memRead_ge s s.ptr h, adv_of_ge h]

/-- Settles O10: at the pointer WR_PTR stores, READ and WR_DATA find no cell. -/
theorem outOfRangePointerPolicy : Obligations.OutOfRangePointerPolicy := by
  intro p d s hp
  have hptr : nreg ≤ (wrPtr p s).ptr.toNat := hp
  refine ⟨wrPtr p s, perform_of_enabled _ _ _ rfl, rfl, ?_, ?_⟩
  · exact (perform_of_enabled .read _ _ rfl).trans (congrArg _ (readRequest_of_ge hptr))
  · exact (perform_of_enabled (.wrData d) _ _ rfl).trans (congrArg _ (wrData_of_ge d hptr))

/-! ### The telemetry a tick publishes -/

theorem publish_reg_three (s : State) : (publish s).reg 3 = trunc8 (rpsOf s.cfg s.pulses) := by
  simp [publish, reg_setReg]

theorem publish_reg_four (s : State) : (publish s).reg 4 = trunc8 s.rpm := by
  simp [publish, reg_setReg]

theorem publish_reg_five (s : State) : (publish s).reg 5 = trunc8 (s.rpm / 256) :=
  reg_setReg_same _ 5 _

/-- The calibration step and the deadline leave the telemetry cells as the tick published them (R113). -/
theorem measTick_read_telemetry (now : Nat) (s : State) {a : Nat} (h : 3 ≤ a) :
    (measTick now s).mem.read a = (publish (drain s)).reg a :=
  calStep_reg_other (rearm now (publish (drain s))) a (by omega) (by omega)

/-- The indicator service writes no cell, so that a pass with a tick leaves the tick's register file (R110). -/
theorem loopPass_mem_of_elapsed {now : Nat} {s : State}
    (he : elapsed s.cfg.timeW now s.deadline = true) : (loopPass now s).mem = (measTick now s).mem := by
  obtain ⟨t, htick, _, hpass⟩ := loopPass_cases now s
  rw [hpass, ← htick he]
  split <;> rfl

/-- The low byte of a number and 256 times the next one are the number modulo 2^16 (R49). -/
theorem trunc8_add_trunc8_div (v : Nat) :
    (trunc8 v).toNat + 256 * (trunc8 (v / 256)).toNat = v % 65536 :=
  (Nat.mod_mul (a := 256) (b := 256)).symm

/-- Settles O26: a pass with a tick leaves the telemetry cells as the tick published them, from the drained
counter. -/
theorem publishedRpmIsLittleEndian : Obligations.PublishedRpmIsLittleEndian := by
  intro now s hdue
  obtain ⟨hfree, helapsed⟩ := Bool.and_eq_true_iff.mp hdue
  have hmem := loopPass_mem_of_elapsed helapsed
  refine ⟨loopPass now s, perform_of_enabled _ _ _ hfree, ?_, ?_⟩
  · rw [hmem, measTick_read_telemetry now s (by decide), measTick_read_telemetry now s (by decide),
      publish_reg_four, publish_reg_five]
    exact trunc8_add_trunc8_div _
  · rw [hmem, measTick_read_telemetry now s (by decide), publish_reg_three]
    exact BitVec.toNat_ofNat _ _

/-! ### What BUS writes -/

/-- The state R58 gives the bus: `t` is `s` but for it, with CAL_ARMED and BLINK_REQ set at most. -/
structure BusWrites (s t : State) : Prop where
  frame : t = { s with
    mem := t.mem, ptr := t.ptr, calArmed := t.calArmed, pwmLevel := t.pwmLevel,
    blinkReq := t.blinkReq, readData := t.readData }
  armed : s.calArmed = true → t.calArmed = true
  blink : s.blinkReq = true → t.blinkReq = true

theorem BusWrites.refl (s : State) : BusWrites s s := ⟨rfl, id, id⟩

theorem BusWrites.trans {s t u : State} (h : BusWrites s t) (k : BusWrites t u) : BusWrites s u where
  frame := by
    have hu := k.frame
    rw [h.frame] at hu
    exact hu
  armed := k.armed ∘ h.armed
  blink := k.blink ∘ h.blink

theorem setReg_busWrites (i : Nat) (v : Byte) (s : State) : BusWrites s (s.setReg i v) := ⟨rfl, id, id⟩

theorem applyLevel_busWrites (v : Byte) (s : State) : BusWrites s (applyLevel v s) := ⟨rfl, id, id⟩

theorem wrPtr_busWrites (p : Byte) (s : State) : BusWrites s (wrPtr p s) := ⟨rfl, id, id⟩

theorem advancePtr_busWrites (s : State) : BusWrites s (advancePtr s) := ⟨rfl, id, id⟩

theorem requestBlink_busWrites (s : State) : BusWrites s (requestBlink s) := ⟨rfl, id, fun _ => rfl⟩

theorem readRequest_busWrites (s : State) : BusWrites s (readRequest s) := ⟨rfl, id, id⟩

/-- A write to Status that is not discarded finds CAL_ARMED clear, and so clears no request (R83). -/
theorem wrStatus_busWrites (d : Byte) (s : State) : BusWrites s (wrStatus d s) := by
  cases hl : s.locked with
  | true =>
    rw [wrStatus_of_locked d hl]
    exact .refl s
  | false =>
    obtain ⟨_, harmed⟩ := (locked_false_iff s).mp hl
    rw [wrStatus_of_unlocked d hl]
    exact ⟨rfl, fun h => absurd (h.symm.trans harmed) (by decide), id⟩

theorem wrSpeed_busWrites (d : Byte) (s : State) : BusWrites s (wrSpeed d s) := by
  cases hl : s.locked with
  | true =>
    rw [wrSpeed_of_locked d hl]
    exact .refl s
  | false =>
    rw [wrSpeed_of_unlocked d hl]
    exact (setReg_busWrites 1 d s).trans (applyLevel_busWrites _ _)

theorem wrFloor_busWrites (d : Byte) (s : State) : BusWrites s (wrFloor d s) := by
  cases hl : s.locked with
  | true =>
    rw [wrFloor_of_locked d hl]
    exact .refl s
  | false =>
    rw [wrFloor_of_unlocked d hl]
    exact (setReg_busWrites 2 d s).trans (applyLevel_busWrites _ _)

theorem cellByte_busWrites (d : Byte) (s : State) : BusWrites s (cellByte d s) := by
  unfold cellByte
  split
  · exact wrStatus_busWrites d s
  · exact wrSpeed_busWrites d s
  · exact wrFloor_busWrites d s
  · exact setReg_busWrites 3 d s
  · exact setReg_busWrites 4 d s
  · exact setReg_busWrites 5 d s
  · exact .refl s

theorem wrData_busWrites (d : Byte) (s : State) : BusWrites s (wrData d s) :=
  (cellByte_busWrites d s).trans (advancePtr_busWrites _)

theorem wrDataAll_busWrites (ds : List Byte) (s : State) : BusWrites s (wrDataAll ds s) := by
  induction ds generalizing s with
  | nil => exact .refl s
  | cons d ds ih => exact (wrData_busWrites d s).trans (ih (wrData d s))

theorem writeBurst_busWrites (b : List Byte) (s : State) : BusWrites s (writeBurst b s) := by
  obtain ⟨_, hw⟩ | ⟨p, ds, _, _, hw⟩ := writeBurst_cases b s
  · rw [hw]
    exact .refl s
  · rw [hw]
    exact ((wrPtr_busWrites p s).trans (wrDataAll_busWrites ds _)).trans (requestBlink_busWrites _)

theorem effect_busWrites {i : Instr} (ha : i.agent = .bus) (s : State) : BusWrites s (effect i s) := by
  cases i with
  | writeBurst b => exact writeBurst_busWrites b s
  | wrPtr p => exact wrPtr_busWrites p s
  | wrData d => exact wrData_busWrites d s
  | wrStatus d => exact wrStatus_busWrites d s
  | wrSpeed d => exact wrSpeed_busWrites d s
  | wrFloor d => exact wrFloor_busWrites d s
  | wrRps d => exact setReg_busWrites 3 d s
  | wrRpmLo d => exact setReg_busWrites 4 d s
  | wrRpmHi d => exact setReg_busWrites 5 d s
  | read => exact readRequest_busWrites s
  | applyLevel v => exact applyLevel_busWrites v s
  | wrReject _ | wrNone _ _ => exact .refl s
  | _ => cases ha

/-! ### What SEQ writes -/

/-- The state R58 gives the sequencer: `t` is `s` but for it, with CAL_ARMED and BLINK_REQ cleared at most,
TACHO_CNT kept or drained, and SpeedCommand kept. -/
structure SeqWrites (s t : State) : Prop where
  frame : t = { s with
    mem := t.mem, calArmed := t.calArmed, calActive := t.calActive, pwmLevel := t.pwmLevel,
    tachoCnt := t.tachoCnt, deadline := t.deadline, blinkReq := t.blinkReq, indOut := t.indOut,
    indPhase := t.indPhase, pulses := t.pulses }
  armed : t.calArmed = true → s.calArmed = true
  blink : t.blinkReq = true → s.blinkReq = true
  tacho : t.tachoCnt = s.tachoCnt ∨ t.tachoCnt = 0
  speed : t.mem.read 1 = s.mem.read 1

theorem SeqWrites.refl (s : State) : SeqWrites s s := ⟨rfl, id, id, .inl rfl, rfl⟩

theorem SeqWrites.trans {s t u : State} (h : SeqWrites s t) (k : SeqWrites t u) : SeqWrites s u where
  frame := by
    have hu := k.frame
    rw [h.frame] at hu
    exact hu
  armed := h.armed ∘ k.armed
  blink := h.blink ∘ k.blink
  tacho := k.tacho.elim (fun hk => h.tacho.imp hk.trans hk.trans) .inr
  speed := k.speed.trans h.speed

theorem setReg_seqWrites {i : Nat} (hi : 1 ≠ i) (v : Byte) (s : State) : SeqWrites s (s.setReg i v) :=
  ⟨rfl, id, id, .inl rfl, Memory.read_write_other s.mem i 1 v hi⟩

theorem drain_seqWrites (s : State) : SeqWrites s (drain s) := ⟨rfl, id, id, .inr rfl, rfl⟩

theorem publish_seqWrites (s : State) : SeqWrites s (publish s) :=
  ((setReg_seqWrites (by decide) _ s).trans (setReg_seqWrites (by decide) _ _)).trans
    (setReg_seqWrites (by decide) _ _)

theorem rearm_seqWrites (now : Nat) (s : State) : SeqWrites s (rearm now s) := ⟨rfl, id, id, .inl rfl, rfl⟩

theorem indAssert_seqWrites (s : State) : SeqWrites s (indAssert s) := ⟨rfl, id, id, .inl rfl, rfl⟩

theorem indRelease_seqWrites (s : State) : SeqWrites s (indRelease s) :=
  ⟨rfl, id, fun h => (by cases h), .inl rfl, rfl⟩

/-- The level and the active flag, which every step of a calibration may move (R119 to R123). -/
theorem setLevelActive_seqWrites (pwm : Byte) (active : Bool) (s : State) :
    SeqWrites s { s with pwmLevel := pwm, calActive := active } := ⟨rfl, id, id, .inl rfl, rfl⟩

theorem calStop_seqWrites (s : State) : SeqWrites s (calStop s) :=
  (setReg_seqWrites (by decide) _ s).trans (setLevelActive_seqWrites _ _ s.setCalBit)

theorem calToRamp_seqWrites (s : State) : SeqWrites s (calToRamp s) :=
  ⟨rfl, fun h => (by cases h), id, .inl rfl, rfl⟩

theorem calRamp_seqWrites (s : State) : SeqWrites s (calRamp s) :=
  (setReg_seqWrites (by decide) _ s).trans (setLevelActive_seqWrites _ s.calActive s.setCalBit)

theorem calFail_seqWrites (s : State) : SeqWrites s (calFail s) :=
  (setReg_seqWrites (by decide) _ s).trans (setLevelActive_seqWrites _ _ s.clearCalBit)

/-- A calibration that succeeds stores the floor and then ends as one that fails (R121, R123). -/
theorem calSuccess_seqWrites (s : State) : SeqWrites s (calSuccess s) :=
  (setReg_seqWrites (by decide) _ s).trans (calFail_seqWrites (s.setReg 2 (satAdd s.pwmLevel calMargin)))

theorem calStep_seqWrites (s : State) : SeqWrites s (calStep s) := by
  unfold calStep
  split
  · exact .refl s
  · exact calStop_seqWrites s
  · exact calToRamp_seqWrites s
  · split
    · exact calSuccess_seqWrites s
    · split
      · exact calRamp_seqWrites s
      · exact calFail_seqWrites s

theorem measTick_seqWrites (now : Nat) (s : State) : SeqWrites s (measTick now s) :=
  (((drain_seqWrites s).trans (publish_seqWrites _)).trans (rearm_seqWrites now _)).trans
    (calStep_seqWrites _)

theorem indService_seqWrites (s : State) : SeqWrites s (if s.blinkReq then indAssert s else s) := by
  split
  · exact indAssert_seqWrites s
  · exact .refl s

theorem loopPass_seqWrites (now : Nat) (s : State) : SeqWrites s (loopPass now s) := by
  refine .trans ?_ (indService_seqWrites _)
  split
  · exact measTick_seqWrites now s
  · exact .refl s

theorem effect_seqWrites {i : Instr} (ha : i.agent = .seq) (s : State) : SeqWrites s (effect i s) := by
  cases i with
  | drain => exact drain_seqWrites s
  | loopPass now => exact loopPass_seqWrites now s
  | measTick now => exact measTick_seqWrites now s
  | calIdle => exact .refl s
  | calStop => exact calStop_seqWrites s
  | calToRamp => exact calToRamp_seqWrites s
  | calSuccess => exact calSuccess_seqWrites s
  | calRamp => exact calRamp_seqWrites s
  | calFail => exact calFail_seqWrites s
  | indAssert => exact indAssert_seqWrites s
  | indRelease => exact indRelease_seqWrites s
  | _ => cases ha

/-! ### What each agent's operations write, taken or not -/

section
variable {i : Instr} {s t : State}

theorem exec_busWrites (ha : i.agent = .bus) (h : exec i s = .next t) : BusWrites s t := by
  obtain ⟨_, rfl⟩ | ⟨_, rfl⟩ := exec_next_cases i s t h
  · exact effect_busWrites ha s
  · exact .refl _

theorem exec_seqWrites (ha : i.agent = .seq) (h : exec i s = .next t) : SeqWrites s t := by
  obtain ⟨_, rfl⟩ | ⟨_, rfl⟩ := exec_next_cases i s t h
  · exact effect_seqWrites ha s
  · exact .refl _

/-- TACHO_EDGE is the only operation of its agent (R100). -/
theorem exec_tachoWrites (ha : i.agent = .tacho) (h : exec i s = .next t) :
    t = { s with tachoCnt := t.tachoCnt } := by
  cases i with
  | tachoEdge =>
    cases h
    rfl
  | _ => cases ha

/-- RESET, the only operation of its agent, leaves what stands outside R40's state (log entry 15). -/
theorem exec_envKeeps (ha : i.agent = .env) (h : exec i s = .next t) :
    t.cfg = s.cfg ∧ t.inner = s.inner ∧ t.pending = s.pending := by
  cases i with
  | reset now =>
    cases h
    exact ⟨rfl, rfl, rfl⟩
  | _ => cases ha

/-- No operation of any agent writes the parameters, the place a step begins at or the requests. -/
theorem exec_keeps_requests (h : exec i s = .next t) :
    t.cfg = s.cfg ∧ t.inner = s.inner ∧ t.pending = s.pending := by
  cases ha : i.agent with
  | bus =>
    rw [(exec_busWrites ha h).frame]
    exact ⟨rfl, rfl, rfl⟩
  | tacho =>
    rw [exec_tachoWrites ha h]
    exact ⟨rfl, rfl, rfl⟩
  | seq =>
    rw [(exec_seqWrites ha h).frame]
    exact ⟨rfl, rfl, rfl⟩
  | env => exact exec_envKeeps ha h

end

/-- Settles O49: each agent's operations, one after the other, write only what R58 gives that agent. -/
theorem eachAgentWritesItsOwnState : Obligations.EachAgentWritesItsOwnState := by
  intro i s t h
  obtain ⟨hcfg, hinner, hpending⟩ := exec_keeps_requests h
  refine ⟨hcfg, hinner, hpending, fun ha => exec_tachoWrites ha h, fun ha => ?_, fun ha => ?_⟩
  · obtain ⟨hframe, harmed, hblink⟩ := exec_busWrites ha h
    exact ⟨hframe, harmed, hblink⟩
  · obtain ⟨hframe, harmed, hblink, htacho, hspeed⟩ := exec_seqWrites ha h
    exact ⟨hframe, harmed, hblink, htacho, hspeed⟩

/-! ### The operation a step runs -/

section
variable {s : State}

theorem fetch_of_place {q : Inner} (hi : s.inner = some q) :
    fetch s = some (s.innerFrame q, s.leave) := by
  simp [fetch, hi]

theorem fetch_of_request {r : Request} {rest : List Request} (hi : s.inner = none)
    (hp : s.pending = r :: rest) : fetch s = some (s.frameOf r, s.dropRequest rest) := by
  simp [fetch, hi, hp]

theorem fetch_of_no_request (hi : s.inner = none) (hp : s.pending = []) : fetch s = none := by
  simp [fetch, hi, hp]

theorem step_of_fetch_none (hf : fetch s = none) : step s = .next s := by
  simp [step, hf]

theorem step_of_fetch {f : Frame} {u : State} {i : Instr} (hf : fetch s = some (f, u))
    (hd : decode u.cfg f = .ok i) : step s = exec i u := by
  simp [step, hf, hd]

/-- A place inside a whole operation always has its word, so that nothing is fetched only between them. -/
theorem inner_of_fetch_none (hf : fetch s = none) : s.inner = none := by
  obtain ⟨q, _, hq⟩ | ⟨hi, _⟩ | ⟨_, _, hi, _⟩ := fetch_cases s
  · exact absurd (hf.symm.trans hq) nofun
  · exact hi
  · exact hi

/-- The operation fetched runs with the place left: a request is fetched at none, and a place is cleared. -/
theorem inner_of_fetch {f : Frame} {u : State} (hf : fetch s = some (f, u)) : u.inner = none := by
  obtain ⟨q, _, hq⟩ | ⟨_, _, hn⟩ | ⟨r, rest, hi, _, hr⟩ := fetch_cases s
  · rw [hq] at hf
    cases hf
    rfl
  · rw [hn] at hf
    cases hf
  · rw [hr] at hf
    cases hf
    exact hi

end

/-- Settles O48: one case per thing a step can fetch. -/
theorem stepRunsTheDecodedOperation : Obligations.StepRunsTheDecodedOperation := fun _ =>
  ⟨fun hi hp => step_of_fetch_none (fetch_of_no_request hi hp),
    fun _ _ _ hi hp hd => step_of_fetch (fetch_of_request hi hp) hd,
    fun _ _ hi hd => step_of_fetch (fetch_of_place hi) hd⟩

/-- Settles O59: what is fetched runs between whole operations, and no operation sets the place. -/
theorem stepsEndBetweenWholeOperations : Obligations.StepsEndBetweenWholeOperations := by
  refine ⟨rfl, fun s t hs => ?_⟩
  obtain ⟨hf, rfl⟩ | ⟨_, _, _, hf, _, hx⟩ := step_next_cases s t hs
  · exact inner_of_fetch_none hf
  · obtain ⟨_, hinner, _⟩ := exec_keeps_requests hx
    exact hinner.trans (inner_of_fetch hf)

end Sys2Proof.Machine

/-!
PROOFS. The decode words: the word of a data byte (R63), a transaction's count (R64), the calibration step's word
(R66), and the line as what tells the formats apart (R62, R67).
-/

namespace Sys2Proof.Machine

open Sys2Proof

/-! ### The word of a data byte -/

/-- The rows of the WD table: a cell's pointer, or one outside the register file (R63). -/
theorem pointer_cases (p : Byte) :
    p = 0x00#8 ∨ p = 0x01#8 ∨ p = 0x02#8 ∨ p = 0x03#8 ∨ p = 0x04#8 ∨ p = 0x05#8 ∨ nreg ≤ p.toNat := by
  unfold nreg
  bv_omega

theorem decodeData_of_ge {p : Byte} (d : Byte) (h : nreg ≤ p.toNat) : decodeData p d = .wrNone p d := by
  unfold nreg at h
  unfold decodeData
  split
  iterate 6 · omega
  · rfl

theorem decodeData_wf (c : Config) (p d : Byte) : (decodeData p d).wf c = true := by
  obtain rfl | rfl | rfl | rfl | rfl | rfl | h := pointer_cases p
  iterate 6 · rfl
  · rw [decodeData_of_ge d h]
    exact decide_eq_true h

theorem encode_decodeData (c : Config) (p d : Byte) :
    encode c (decodeData p d) = { line := .wd, bytes := [d, p] } := by
  obtain rfl | rfl | rfl | rfl | rfl | rfl | h := pointer_cases p
  iterate 6 · rfl
  · rw [decodeData_of_ge d h, encode]

/-- Settles O52: the operation is the one the WD table gives for the pointer. -/
theorem everyDataWordHasOneMeaning : Obligations.EveryDataWordHasOneMeaning := fun c p d =>
  ⟨decodeData p d, rfl, decodeData_wf c p d, encode_decodeData c p d⟩

/-! ### Words of the table -/

theorem trunc8_data (p d : Byte) : trunc8 (p.toNat * 256 + d.toNat) = d := by
  unfold trunc8
  bv_omega

theorem trunc8_pointer (p d : Byte) : trunc8 ((p.toNat * 256 + d.toNat) / 256) = p := by
  unfold trunc8
  bv_omega

theorem decodeTableWord_wd (p d : Byte) :
    decodeTableWord 16 (p.toNat * 256 + d.toNat) = some (decodeData p d) := by
  have hbytes : toBytes 2 (p.toNat * 256 + d.toNat) = [d, p] :=
    congrArg₂ (fun x y => [x, y]) (trunc8_data p d) (trunc8_pointer p d)
  simp [decodeTableWord, tableFrame, hbytes, decode, decodeWd]

/-- A bare CS word of 8 bits has its two conditions at 0 (log entries 10 and 11). -/
theorem decodeTableWord_cs (active armed : Bool) :
    decodeTableWord 8 (2 * active.toNat + armed.toNat) = some (decodeCal active armed false false) := by
  cases active <;> cases armed <;> rfl

/-- Settles O54: four data words by their pointer byte, two CS words by their flags. -/
theorem tableWordsDecode : Obligations.TableWordsDecode :=
  ⟨decodeTableWord_wd 0x00#8 0x03#8, decodeTableWord_wd 0x01#8 0x80#8, decodeTableWord_wd 0x02#8 0x64#8,
    decodeTableWord_wd 0x07#8 0x55#8, decodeTableWord_cs false true, decodeTableWord_cs true true⟩

/-- A WD word is placed at a data byte, with PTR its bits 15:8 (log entry 20). -/
theorem withFetchWord_wd (s : State) (p d : Byte) :
    s.withFetchWord 16 (p.toNat * 256 + d.toNat) = { s with ptr := p }.enter (.dataByte d) := by
  have hmod : (p.toNat * 256 + d.toNat) % 2 ^ 16 = p.toNat * 256 + d.toNat := by bv_omega
  simp only [State.withFetchWord, State.placeWord, hmod, trunc8_data, trunc8_pointer]

/-- Settles O55: the placed word is what the next step fetches. -/
theorem placedDataWordIsRunNext : Obligations.PlacedDataWordIsRunNext := fun s p d => by
  refine ⟨decodeData p d, decodeTableWord_wd p d, ?_⟩
  rw [withFetchWord_wd]
  exact step_of_fetch (fetch_of_place rfl) rfl

/-! ### The count of a write transaction -/

section
variable {c : Config} {b : List Byte}

theorem acceptedLength_iff {k : Nat} : acceptedLength c k = true ↔ 1 ≤ k ∧ k ≤ c.rxbufN := by
  simp [acceptedLength]

theorem decodeBurst_of_accepted (h : 1 ≤ b.length ∧ b.length ≤ c.rxbufN) :
    decodeBurst c b = .writeBurst b := if_pos h

theorem decodeBurst_of_rejected (h : ¬(1 ≤ b.length ∧ b.length ≤ c.rxbufN)) :
    decodeBurst c b = .wrReject b := if_neg h

theorem decodeBurst_cases (c : Config) (b : List Byte) :
    decodeBurst c b = .writeBurst b ∨ decodeBurst c b = .wrReject b :=
  ite_eq_or_eq ..

theorem decodeBurst_wf (c : Config) (b : List Byte) : (decodeBurst c b).wf c = true := by
  by_cases h : 1 ≤ b.length ∧ b.length ≤ c.rxbufN
  · rw [decodeBurst_of_accepted h]
    exact acceptedLength_iff.mpr h
  · rw [decodeBurst_of_rejected h, Instr.wf, Bool.not_eq_true', ← Bool.not_eq_true, acceptedLength_iff]
    exact h

theorem decodeBurst_eq_writeBurst_iff :
    decodeBurst c b = .writeBurst b ↔ 1 ≤ b.length ∧ b.length ≤ c.rxbufN := by
  simp [decodeBurst]

theorem decodeBurst_eq_wrReject_iff :
    decodeBurst c b = .wrReject b ↔ b.length = 0 ∨ c.rxbufN < b.length := by
  have hcount : decodeBurst c b = .wrReject b ↔ ¬(1 ≤ b.length ∧ b.length ≤ c.rxbufN) := by
    simp [decodeBurst]
  rw [hcount]
  omega

end

/-- Settles O53: the two counts are each other's complement. -/
theorem countAloneSelectsBurstOrReject : Obligations.CountAloneSelectsBurstOrReject := fun c b =>
  ⟨decodeBurst c b, rfl, decodeBurst_wf c b, decodeBurst_eq_writeBurst_iff, decodeBurst_eq_wrReject_iff⟩

/-! ### The word of the calibration step -/

section
variable (low high : Bool)

theorem bitPair_lt : (bitByte low ||| (bitByte high <<< 1)).toNat < 4 := by
  cases low <;> cases high <;> decide

theorem bitPair_bit_zero : (bitByte low ||| (bitByte high <<< 1)).getLsbD 0 = low := by
  cases low <;> cases high <;> rfl

theorem bitPair_bit_one : (bitByte low ||| (bitByte high <<< 1)).getLsbD 1 = high := by
  cases low <;> cases high <;> rfl

end

section
variable (s : State)

/-- The operation the CS word of a state stands for (R66). -/
def State.calInstr : Instr := decodeCal s.calActive s.calArmed s.rpmAbove s.pwmFull

theorem decode_calStep : decode s.cfg (s.innerFrame .calStep) = .ok s.calInstr := by
  simp only [decode, State.innerFrame, State.csBytes, decodeCs, bitPair_lt, bitPair_bit_zero, bitPair_bit_one,
    and_self, if_true, State.calInstr]

theorem calInstr_eq_table :
    s.calInstr = if s.calActive = false ∧ s.calArmed = false then .calIdle
      else if s.calActive = false ∧ s.calArmed = true then .calStop
      else if s.calActive = true ∧ s.calArmed = true then .calToRamp
      else if s.pulses * 60 / s.cfg.periodS > 200 then .calSuccess
      else if s.pwmLevel.toNat < 255 then .calRamp
      else .calFail := by
  have habove : s.rpmAbove = decide (s.pulses * 60 / s.cfg.periodS > 200) := rfl
  have hfull : s.pwmFull = !decide (s.pwmLevel.toNat < 255) := rfl
  unfold State.calInstr
  cases s.calActive <;> cases s.calArmed
  case true.false => by_cases hp : s.pwmLevel.toNat < 255 <;> simp [decodeCal, habove, hfull, hp]
  all_goals rfl

/-- Outside the hold the flags and the two conditions enable one calibration operation only (R66, R75). -/
theorem enabled_cal_iff (hf : s.indPhase = .free) (j : Instr)
    (hj : j ∈ [Instr.calIdle, .calStop, .calToRamp, .calSuccess, .calRamp, .calFail]) :
    enabled j s = true ↔ j = s.calInstr := by
  have hseq : s.seqFree = true := by simp [State.seqFree, hf]
  simp only [List.mem_cons, List.not_mem_nil, or_false] at hj
  unfold State.calInstr
  obtain rfl | rfl | rfl | rfl | rfl | rfl := hj
  all_goals
    simp only [enabled, hseq, State.calState, Bool.true_and]
    cases s.calActive <;> cases s.calArmed
    case true.false => cases s.rpmAbove <;> cases s.pwmFull <;> decide
    all_goals simp [calStateOf, decodeCal]

end

/-- Settles O29: the CS word's bits are the flags and conditions the operations are selected by. -/
theorem csWordSelectsOneCalibrationStep : Obligations.CsWordSelectsOneCalibrationStep := fun s =>
  ⟨s.calInstr, decode_calStep s, calInstr_eq_table s, enabled_cal_iff s⟩

/-! ### The line a word arrives on -/

section
variable {c : Config} {line : Line} {bs : List Byte} {i : Instr}

theorem decodeTime_ok {mk : Nat → Instr} (h : decodeTime c line mk bs = .ok i) : ∃ now, i = mk now := by
  unfold decodeTime at h
  split_ifs at h
  cases h
  exact ⟨_, rfl⟩

theorem decodeByte_ok {mk : Byte → Instr} (h : decodeByte line mk bs = .ok i) : ∃ b, i = mk b := by
  unfold decodeByte at h
  split at h <;> cases h
  exact ⟨_, rfl⟩

theorem decodeEvent_ok {e : Instr} (h : decodeEvent line e bs = .ok i) : i = e := by
  unfold decodeEvent at h
  split at h <;> cases h
  rfl

theorem decodeWd_ok (h : decodeWd bs = .ok i) : ∃ p d, i = decodeData p d := by
  unfold decodeWd at h
  split at h <;> cases h
  exact ⟨_, _, rfl⟩

theorem decodeCs_ok (h : decodeCs bs = .ok i) :
    ∃ active armed above full, i = decodeCal active armed above full := by
  unfold decodeCs at h
  split at h
  · split_ifs at h
    cases h
    exact ⟨_, _, _, _, rfl⟩
  · cases h

theorem encode_decodeBurst_line (c : Config) (b : List Byte) : (encode c (decodeBurst c b)).line = .wt := by
  obtain h | h := decodeBurst_cases c b <;> rw [h] <;> rfl

theorem encode_decodeCal_line (c : Config) (active armed above full : Bool) :
    (encode c (decodeCal active armed above full)).line = .cs := by
  cases active <;> cases armed
  case true.false => cases above <;> cases full <;> rfl
  all_goals rfl

/-- An operation is read only from the line its own word arrives on (R62, R67). -/
theorem encode_line_of_decode {f : Frame} (h : decode c f = .ok i) : (encode c i).line = f.line := by
  obtain ⟨line, bs⟩ := f
  cases line with
  | wt => cases h; exact encode_decodeBurst_line c bs
  | wd => obtain ⟨p, d, rfl⟩ := decodeWd_ok h; rw [encode_decodeData]
  | cs => obtain ⟨_, _, _, _, rfl⟩ := decodeCs_ok h; exact encode_decodeCal_line ..
  | wfPtr | wfData | rq | evApply => obtain ⟨_, rfl⟩ := decodeByte_ok h; rfl
  | lp | rs | evTick => obtain ⟨_, rfl⟩ := decodeTime_ok h; rfl
  | evTacho | evDrain | evAssert | evRelease => obtain rfl := decodeEvent_ok h; rfl

end

/-- A step fetches a request's word, or the word of a place: no other line has one (R52, R67). -/
theorem fetch_line {s u : State} {f : Frame} (hf : fetch s = some (f, u)) :
    f.line ∈ [Line.wt, .rq, .evTacho, .lp, .evRelease, .rs, .wd, .cs] := by
  obtain ⟨q, _, hq⟩ | ⟨_, _, hn⟩ | ⟨r, rest, _, _, hr⟩ := fetch_cases s
  · rw [hq] at hf
    cases hf
    cases q <;> simp [State.innerFrame]
  · rw [hn] at hf
    cases hf
  · rw [hr] at hf
    cases hf
    cases r <;> simp [State.frameOf, timeFrame]

theorem Request.instr_whole (c : Config) (r : Request) : (r.instr c).whole = true := by
  cases r with
  | burst b => obtain h | h := decodeBurst_cases c b <;> rw [Request.instr, h] <;> rfl
  | readByte | edge | pass | release | reset => rfl

/-- Settles O58: requests are whole operations, and the words of the internal ones have lines of their own, which
no step fetches from. -/
theorem onlyWholeOperationsAreServed : Obligations.OnlyWholeOperationsAreServed := by
  refine ⟨fun s r rest hi hp => ?_, fun s u f i hf hd => ?_⟩
  · exact ⟨r.instr s.cfg, r.instr_whole s.cfg, decode_frameOf s r,
      step_of_fetch (fetch_of_request hi hp) (decode_frameOf s r)⟩
  · have hline := fetch_line hf
    rw [← encode_line_of_decode hd] at hline
    refine ⟨?_, fun _ => ?_, fun _ => ?_, ?_, fun _ => ?_, fun _ => ?_⟩
    all_goals
      rintro rfl
      simp [encode] at hline

end Sys2Proof.Machine

/-!
PROOFS. The bus protocol: the cell a data byte writes, the pointer's round over the register file, whole write
transactions, and what the lockout protects from them.
-/

namespace Sys2Proof.Machine

open Sys2Proof

/-! ### Taking a bus operation -/

theorem exec_of_enabled {i : Instr} {s : State} (h : enabled i s = true) : exec i s = .next (effect i s) :=
  (exec_eq_perform i s).trans (perform_of_enabled i _ s h)

/-- An operation with no effect leaves the state, selected or not. -/
theorem exec_of_effect_self {i : Instr} {s : State} (h : effect i s = s) : exec i s = .next s := by
  rw [exec_eq_perform, perform, h, ite_self]

theorem locked_true_iff (s : State) : s.locked = true ↔ s.calActive = true ∨ s.calArmed = true := by
  simp [State.locked]

/-- Settles O1: WR_PTR is selected in every state. -/
theorem wrPtrLoadsPointer : Obligations.WrPtrLoadsPointer := fun _ _ => exec_of_enabled rfl

/-! ### The operations on one cell -/

theorem setReg_stores (s : State) (i : Nat) (v : Byte) :
    (s.setReg i v).mem.read i = v ∧ ∀ a, a ≠ i → (s.setReg i v).mem.read a = s.mem.read a :=
  ⟨reg_setReg_same s i v, fun a h => reg_setReg_other s i a v h⟩

/-- Settles O3: the byte is discarded in the lockout, and outside it cell 0 holds its bit 0. -/
theorem wrStatusStoresBitZeroAndArms : Obligations.WrStatusStoresBitZeroAndArms := by
  intro d s hp
  have hx : exec (.wrStatus d) s = .next (wrStatus d s) := exec_of_enabled (beq_iff_eq.mpr hp)
  refine ⟨fun hl => ?_, fun hu => ?_⟩
  · rw [hx, wrStatus_of_locked d ((locked_true_iff s).mpr hl)]
  · rw [hx, wrStatus_of_unlocked d ((locked_false_iff s).mpr hu), ← and_one_eq]
    exact ⟨_, rfl, rfl, setReg_stores s 0 _⟩

/-- Settles O4: the byte is discarded in the lockout, and outside it cell 1 holds it. -/
theorem wrSpeedStoresAndRecomputes : Obligations.WrSpeedStoresAndRecomputes := by
  intro d s hp
  have hx : exec (.wrSpeed d) s = .next (wrSpeed d s) := exec_of_enabled (beq_iff_eq.mpr hp)
  refine ⟨fun hl => ?_, fun hu => ?_⟩
  · rw [hx, wrSpeed_of_locked d ((locked_true_iff s).mpr hl)]
  · rw [hx, wrSpeed_of_unlocked d ((locked_false_iff s).mpr hu)]
    exact ⟨_, rfl, rfl, setReg_stores s 1 d⟩

/-- Settles O5: the byte is discarded in the lockout, and outside it cell 2 holds it. -/
theorem wrFloorStoresAndRecomputes : Obligations.WrFloorStoresAndRecomputes := by
  intro d s hp
  have hx : exec (.wrFloor d) s = .next (wrFloor d s) := exec_of_enabled (beq_iff_eq.mpr hp)
  refine ⟨fun hl => ?_, fun hu => ?_⟩
  · rw [hx, wrFloor_of_locked d ((locked_true_iff s).mpr hl)]
  · rw [hx, wrFloor_of_unlocked d ((locked_false_iff s).mpr hu)]
    exact ⟨_, rfl, rfl, setReg_stores s 2 d⟩

/-- Settles O6: each of the three is a plain store to its cell. -/
theorem telemetryWritesAreStored : Obligations.TelemetryWritesAreStored := by
  intro d s i a hcell
  have hx : exec i s = .next (s.setReg a d) := by
    obtain ⟨rfl, hp, rfl⟩ | ⟨rfl, hp, rfl⟩ | ⟨rfl, hp, rfl⟩ := hcell
    all_goals exact exec_of_enabled (beq_iff_eq.mpr hp)
  exact ⟨_, hx, rfl, setReg_stores s a d⟩

/-! ### The operation the pointer selects -/

theorem decodeData_eq_table (p d : Byte) :
    decodeData p d = if p = 0x00#8 then .wrStatus d
      else if p = 0x01#8 then .wrSpeed d
      else if p = 0x02#8 then .wrFloor d
      else if p = 0x03#8 then .wrRps d
      else if p = 0x04#8 then .wrRpmLo d
      else if p = 0x05#8 then .wrRpmHi d
      else .wrNone p d := by
  obtain rfl | rfl | rfl | rfl | rfl | rfl | h := pointer_cases p
  iterate 6 · rfl
  · have hne : ∀ k : Byte, k.toNat < nreg → p ≠ k := by
      rintro k hk rfl
      exact absurd hk (Nat.not_lt.mpr h)
    rw [decodeData_of_ge d h]
    iterate 6 rw [if_neg (hne _ (by decide))]

/-- The operation of the word WD formed from PTR is selected, and is the cell operation of PTR (R63, R82). -/
theorem exec_decodeData (d : Byte) (s : State) : exec (decodeData s.ptr d) s = .next (cellByte d s) := by
  obtain h | h | h | h | h | h | h := pointer_cases s.ptr
  iterate 6
    · have hcell : effect (decodeData s.ptr d) s = cellByte d s := by
        unfold cellByte
        rw [h]
        rfl
      rw [exec_of_enabled (by rw [h]; exact beq_iff_eq.mpr h), hcell]
  · rw [decodeData_of_ge d h, cellByte_of_ge d h]
    exact exec_of_effect_self rfl

/-! ### The pointer's advance -/

theorem adv_eq_ite (p : Byte) : adv p = if p.toNat + 1 ≥ 6 then 0x00#8 else p + 0x01#8 := by
  have hsucc : BitVec.ofNat 8 (p.toNat + 1) = p + 0x01#8 := by bv_omega
  rw [adv, hsucc, nreg]

theorem adv_toNat_of_lt {p : Byte} (h : p.toNat < 6) : (adv p).toNat = (p.toNat + 1) % 6 := by
  rw [adv_eq_ite]
  split
  · have hp : p.toNat = 5 := by omega
    rw [hp]
    rfl
  · bv_omega

theorem adv_iterate_toNat_of_lt {p : Byte} (h : p.toNat < 6) (n : Nat) :
    (adv^[n] p).toNat = (p.toNat + n) % 6 := by
  induction n with
  | zero => exact (Nat.mod_eq_of_lt h).symm
  | succ n ih =>
    rw [Function.iterate_succ_apply', adv_toNat_of_lt (by omega), ih]
    omega

/-- From outside the register file the first byte goes to 0, and the others round the six cells (R96). -/
theorem adv_iterate_toNat_of_ge {p : Byte} (h : 6 ≤ p.toNat) {n : Nat} (hn : 1 ≤ n) :
    (adv^[n] p).toNat = (n - 1) % 6 := by
  obtain ⟨m, rfl⟩ := Nat.exists_eq_add_of_le' hn
  rw [Function.iterate_succ_apply, adv_of_ge h, adv_iterate_toNat_of_lt (by decide)]
  simp

theorem wrData_ptr (d : Byte) (s : State) : (wrData d s).ptr = adv s.ptr :=
  congrArg State.ptr (wrData_frame d s)

/-- Settles O2: the word's operation is the cell operation, and WR_DATA advances PTR after it. -/
theorem wrDataRunsSelectedThenAdvances : Obligations.WrDataRunsSelectedThenAdvances := by
  intro d s
  refine ⟨_, _, rfl, decodeData_eq_table s.ptr d, exec_decodeData d s, ?_⟩
  rw [← adv_eq_ite, ← wrData_ptr d s]
  exact exec_of_enabled rfl

/-- Settles O9: READ is selected in every state; its byte is MemRead's and its advance is adv. -/
theorem readReturnsCellAndAdvances : Obligations.ReadReturnsCellAndAdvances := by
  intro s
  rw [← adv_eq_ite]
  exact exec_of_enabled rfl

theorem exec_byteOp {i : Instr} (hi : i.isByteOp = true) (s : State) :
    ∃ t, exec i s = .next t ∧ t.ptr = adv s.ptr := by
  cases i with
  | wrData d => exact ⟨wrData d s, exec_of_enabled rfl, wrData_ptr d s⟩
  | read => exact ⟨readRequest s, exec_of_enabled rfl, rfl⟩
  | _ => cases hi

theorem runOps_cons {i : Instr} {s t : State} (h : exec i s = .next t) (is : List Instr) :
    runOps (i :: is) s = runOps is t := by
  rw [runOps, h]

theorem runOps_byteOps (ops : List Instr) (s : State) (hops : ∀ i ∈ ops, i.isByteOp = true) :
    ∃ t, runOps ops s = .next t ∧ t.ptr = adv^[ops.length] s.ptr := by
  induction ops generalizing s with
  | nil => exact ⟨s, rfl, rfl⟩
  | cons i is ih =>
    obtain ⟨hi, his⟩ := List.forall_mem_cons.mp hops
    obtain ⟨u, hx, hu⟩ := exec_byteOp hi s
    obtain ⟨t, hrun, ht⟩ := ih u his
    rw [hu] at ht
    exact ⟨t, (runOps_cons hx is).trans hrun, ht⟩

/-- Settles O11: every byte operation advances PTR, so a run of them iterates adv. -/
theorem pointerWrapsModuloSix : Obligations.PointerWrapsModuloSix := by
  intro ops s hops
  obtain ⟨t, hrun, ht⟩ := runOps_byteOps ops s hops
  refine ⟨t, hrun, fun h => ?_, fun h hlen => ?_, fun h hne => ?_⟩
  · rw [ht, adv_iterate_toNat_of_lt h]
  · rw [ht, hlen]
    refine BitVec.eq_of_toNat_eq ?_
    rw [adv_iterate_toNat_of_lt h, Nat.add_mod_right, Nat.mod_eq_of_lt h]
  · rw [ht, adv_iterate_toNat_of_ge h hne]

/-! ### Whole write transactions -/

theorem writeBurst_of_accepted (p : Byte) (ds : List Byte) {s : State} (h : ds.length + 1 ≤ s.cfg.rxbufN) :
    writeBurst (p :: ds) s = requestBlink (wrDataAll ds (wrPtr p s)) := by
  refine if_neg ?_
  rw [List.length_cons]
  omega

theorem writeBurst_of_rejected {b : List Byte} {s : State} (h : b.length = 0 ∨ s.cfg.rxbufN < b.length) :
    writeBurst b s = s := if_pos h

theorem runOps_wrPtr_wrData (p : Byte) (ds : List Byte) (s : State) :
    runOps (.wrPtr p :: ds.map .wrData) s = .next (wrDataAll ds (wrPtr p s)) :=
  runOps_wrData ds (wrPtr p s)

/-- Settles O8: both run the pointer byte and the data bytes, and the transaction then asks for the blink. -/
theorem writeBurstIsPointerDataBlink : Obligations.WriteBurstIsPointerDataBlink := by
  intro p ds s hlen
  refine ⟨_, runOps_wrPtr_wrData p ds s, (exec_of_enabled rfl).trans ?_⟩
  exact congrArg _ (writeBurst_of_accepted p ds hlen)

/-- Settles O7: none of the three has an effect, and the count alone makes a transaction a rejected one. -/
theorem discardedAndRejectedChangeNothing : Obligations.DiscardedAndRejectedChangeNothing := by
  refine ⟨fun p d s => exec_of_effect_self rfl, fun b s => exec_of_effect_self rfl, fun b s h => ⟨?_, ?_⟩⟩
  · exact congrArg Except.ok (decodeBurst_eq_wrReject_iff.mpr h)
  · exact exec_of_effect_self (writeBurst_of_rejected h)

/-! ### Bus requests between whole operations -/

theorem step_of_request {s : State} {r : Request} {rest : List Request} (hi : s.inner = none)
    (hp : s.pending = r :: rest) : step s = exec (r.instr s.cfg) (s.dropRequest rest) :=
  step_of_fetch (fetch_of_request hi hp) (decode_frameOf s r)

/-- The data bytes of a transaction leave the blink request, the indicator phase and the requests as they are;
the transaction itself asks for the blink (R92, R93). -/
theorem wrDataAll_keeps_requests (ds : List Byte) (s : State) :
    (wrDataAll ds s).blinkReq = s.blinkReq ∧ (wrDataAll ds s).indPhase = s.indPhase ∧
      (wrDataAll ds s).pending = s.pending := by
  rw [wrDataAll_frame]
  exact ⟨rfl, rfl, rfl⟩

/-- The blink request is all that a transaction adds to its bytes (R92). -/
theorem requestBlink_undone {t : State} {b : Bool} (h : t.blinkReq = b) :
    { requestBlink t with blinkReq := b } = t := by
  subst h
  rfl

/-- The step that serves an accepted write transaction. -/
theorem step_of_accepted_burst {s : State} {p : Byte} {ds : List Byte} {rest : List Request}
    (hi : s.inner = none) (hp : s.pending = .burst (p :: ds) :: rest) (h : ds.length + 1 ≤ s.cfg.rxbufN) :
    step s = .next (requestBlink (wrDataAll ds (wrPtr p (s.dropRequest rest)))) := by
  have hcount : 1 ≤ (p :: ds).length ∧ (p :: ds).length ≤ s.cfg.rxbufN := ⟨Nat.le_add_left 1 ds.length, h⟩
  rw [step_of_request hi hp, Request.instr, decodeBurst_of_accepted hcount]
  exact (exec_of_enabled rfl).trans (congrArg _ (writeBurst_of_accepted p ds h))

/-- The step that serves a rejected write transaction only takes it off the list (R90). -/
theorem step_of_rejected_burst {s : State} {b : List Byte} {rest : List Request}
    (hi : s.inner = none) (hp : s.pending = .burst b :: rest)
    (h : ¬(1 ≤ b.length ∧ b.length ≤ s.cfg.rxbufN)) : step s = .next (s.dropRequest rest) := by
  rw [step_of_request hi hp, Request.instr, decodeBurst_of_rejected h]
  exact exec_of_effect_self rfl

/-- The step that serves a read request. -/
theorem step_of_read {s : State} {rest : List Request} (hi : s.inner = none)
    (hp : s.pending = .readByte :: rest) : step s = .next (readRequest (s.dropRequest rest)) :=
  (step_of_request hi hp).trans (exec_of_enabled rfl)

/-- Settles O14: WRITE_BURST, WR_REJECT and READ are selected in every state, the hold included. -/
theorem busRequestsNeverWait : Obligations.BusRequestsNeverWait := by
  refine fun s rest hi => ⟨fun b hp => ?_, fun hp => ⟨_, step_of_read hi hp, rfl, rfl, rfl⟩⟩
  by_cases hb : 1 ≤ b.length ∧ b.length ≤ s.cfg.rxbufN
  · obtain ⟨hpos, hmax⟩ := hb
    obtain ⟨p, ds, rfl⟩ := List.exists_cons_of_length_pos hpos
    obtain ⟨hblink, hphase, hpending⟩ := wrDataAll_keeps_requests ds (wrPtr p (s.dropRequest rest))
    refine ⟨_, step_of_accepted_burst hi hp hmax, hpending, hphase, fun _ => ⟨rfl, ?_⟩,
      fun hn => absurd ⟨hpos, hmax⟩ hn⟩
    have hundo := requestBlink_undone hblink
    exact (runOps_wrPtr_wrData p ds (s.dropRequest rest)).trans (congrArg _ hundo.symm)
  · exact ⟨_, step_of_rejected_burst hi hp hb, rfl, rfl, fun h => absurd h hb, fun _ => rfl⟩

/-! ### What the lockout protects -/

/-- What R95 protects from the bus while LOCKED, the same in `t` as in `s`. -/
structure SameProtected (s t : State) : Prop where
  status : t.mem.read 0 = s.mem.read 0
  speed : t.mem.read 1 = s.mem.read 1
  floor : t.mem.read 2 = s.mem.read 2
  armed : t.calArmed = s.calArmed
  active : t.calActive = s.calActive
  level : t.pwmLevel = s.pwmLevel

theorem SameProtected.of_eq {s t : State} (h : t = s) : SameProtected s t := by
  subst h
  exact ⟨rfl, rfl, rfl, rfl, rfl, rfl⟩

theorem SameProtected.trans {s t u : State} (h : SameProtected s t) (k : SameProtected t u) :
    SameProtected s u where
  status := k.status.trans h.status
  speed := k.speed.trans h.speed
  floor := k.floor.trans h.floor
  armed := k.armed.trans h.armed
  active := k.active.trans h.active
  level := k.level.trans h.level

/-- The telemetry cells are not among what is protected (R86 to R88, C1). -/
theorem setReg_sameProtected (s : State) {i : Nat} (hi : 3 ≤ i) (v : Byte) : SameProtected s (s.setReg i v) where
  status := reg_setReg_other s i 0 v (by omega)
  speed := reg_setReg_other s i 1 v (by omega)
  floor := reg_setReg_other s i 2 v (by omega)
  armed := rfl
  active := rfl
  level := rfl

theorem wrPtr_sameProtected (p : Byte) (s : State) : SameProtected s (wrPtr p s) := ⟨rfl, rfl, rfl, rfl, rfl, rfl⟩

theorem advancePtr_sameProtected (s : State) : SameProtected s (advancePtr s) := ⟨rfl, rfl, rfl, rfl, rfl, rfl⟩

theorem requestBlink_sameProtected (s : State) : SameProtected s (requestBlink s) :=
  ⟨rfl, rfl, rfl, rfl, rfl, rfl⟩

theorem readRequest_sameProtected (s : State) : SameProtected s (readRequest s) := ⟨rfl, rfl, rfl, rfl, rfl, rfl⟩

section
variable {s : State}

theorem cellByte_sameProtected (hl : s.locked = true) (d : Byte) : SameProtected s (cellByte d s) := by
  unfold cellByte
  split
  · exact .of_eq (wrStatus_of_locked d hl)
  · exact .of_eq (wrSpeed_of_locked d hl)
  · exact .of_eq (wrFloor_of_locked d hl)
  · exact setReg_sameProtected s (by decide) d
  · exact setReg_sameProtected s (by decide) d
  · exact setReg_sameProtected s (by decide) d
  · exact .of_eq rfl

theorem wrData_sameProtected (hl : s.locked = true) (d : Byte) : SameProtected s (wrData d s) :=
  (cellByte_sameProtected hl d).trans (advancePtr_sameProtected _)

/-- Each data byte leaves the lockout on for the next. -/
theorem wrDataAll_sameProtected (hl : s.locked = true) (ds : List Byte) : SameProtected s (wrDataAll ds s) := by
  induction ds generalizing s with
  | nil => exact .of_eq rfl
  | cons d ds ih =>
    obtain ⟨hl', _⟩ := wrData_of_locked d s hl
    exact (wrData_sameProtected hl d).trans (ih hl')

theorem writeBurst_sameProtected (hl : s.locked = true) (b : List Byte) : SameProtected s (writeBurst b s) := by
  obtain ⟨_, hw⟩ | ⟨p, ds, _, _, hw⟩ := writeBurst_cases b s
  · exact .of_eq hw
  · have hptr := wrPtr_sameProtected p s
    have hdata := wrDataAll_sameProtected (s := wrPtr p s) hl ds
    rw [hw]
    exact (hptr.trans hdata).trans (requestBlink_sameProtected _)

/-- In the lockout every bus operation that is taken leaves what is protected; APPLY_LEVEL is not taken (R131). -/
theorem effect_sameProtected (hl : s.locked = true) {i : Instr} (ha : i.agent = .bus)
    (he : enabled i s = true) : SameProtected s (effect i s) := by
  cases i with
  | writeBurst b => exact writeBurst_sameProtected hl b
  | wrPtr p => exact wrPtr_sameProtected p s
  | wrData d => exact wrData_sameProtected hl d
  | wrStatus d => exact .of_eq (wrStatus_of_locked d hl)
  | wrSpeed d => exact .of_eq (wrSpeed_of_locked d hl)
  | wrFloor d => exact .of_eq (wrFloor_of_locked d hl)
  | wrRps d | wrRpmLo d | wrRpmHi d => exact setReg_sameProtected s (by decide) d
  | read => exact readRequest_sameProtected s
  | wrReject _ | wrNone _ _ => exact .of_eq rfl
  | applyLevel v =>
    rw [enabled, hl] at he
    exact absurd he (by decide)
  | _ => cases ha

theorem exec_sameProtected (hl : s.locked = true) {i : Instr} (ha : i.agent = .bus) {t : State}
    (h : exec i s = .next t) : SameProtected s t := by
  obtain ⟨he, rfl⟩ | ⟨_, rfl⟩ := exec_next_cases i s t h
  · exact effect_sameProtected hl ha he
  · exact .of_eq rfl

end

/-- Settles O12: no bus operation reaches what is protected, and a burst to cell 3 is a plain store. -/
theorem lockoutProtectsRegistersAndLevel : Obligations.LockoutProtectsRegistersAndLevel := by
  refine ⟨fun i s t hl ha h => ?_, fun d s _ hlen => ?_⟩
  · obtain ⟨hstatus, hspeed, hfloor, harmed, hactive, hlevel⟩ := exec_sameProtected hl ha h
    exact ⟨hstatus, hspeed, hfloor, harmed, hactive, hlevel⟩
  · have hburst : writeBurst [0x03#8, d] s = requestBlink (advancePtr ((wrPtr 0x03#8 s).setReg 3 d)) :=
      writeBurst_of_accepted 0x03#8 [d] hlen
    exact ⟨_, (exec_of_enabled rfl).trans (congrArg _ hburst), rfl, reg_setReg_same s 3 d⟩

end Sys2Proof.Machine

/-!
PROOFS. The tachometer accumulator: the step that serves an edge, a pass whose tick is due or RESET, the steps
that leave the counter alone, and the edges a run of steps counts (R100 to R103).
-/

namespace Sys2Proof.Machine

open Sys2Proof

/-! ### The operations on the counter -/

theorem seqFree_of_free {s : State} (h : s.indPhase = .free) : s.seqFree = true := by
  simp [State.seqFree, h]

/-- Settles O18: TACHO_EDGE is selected in every state. -/
theorem tachoEdgeCountsOne : Obligations.TachoEdgeCountsOne := fun _ => exec_of_enabled rfl

/-- Settles O19: DRAIN is selected outside the hold. -/
theorem drainReturnsAndClears : Obligations.DrainReturnsAndClears := fun _ h =>
  exec_of_enabled (seqFree_of_free h)

/-! ### What a pass does to the counter -/

/-- The counter and the last drained window are the same in `t` as in `s`. -/
def SameCounter (s t : State) : Prop := t.tachoCnt = s.tachoCnt ∧ t.pulses = s.pulses

theorem SameCounter.refl (s : State) : SameCounter s s := ⟨rfl, rfl⟩

theorem BusWrites.sameCounter {s t : State} (h : BusWrites s t) : SameCounter s t := by
  rw [h.frame]
  exact .refl s

section
variable {now : Nat} {s : State}

/-- The tick of a pass hands the whole window over and clears the counter; the indicator service that follows
touches neither (R101, R110). -/
theorem loopPass_drains (he : elapsed s.cfg.timeW now s.deadline = true) :
    (loopPass now s).tachoCnt = 0 ∧ (loopPass now s).pulses = s.tachoCnt := by
  obtain ⟨_, htick, _, hpass⟩ := loopPass_cases now s
  rw [hpass, htick he, measTick_frame]
  split <;> exact ⟨rfl, rfl⟩

/-- A pass that does not tick is at most the indicator service (R110). -/
theorem loopPass_sameCounter (he : elapsed s.cfg.timeW now s.deadline = false) :
    SameCounter s (loopPass now s) := by
  obtain ⟨_, _, hnone, hpass⟩ := loopPass_cases now s
  rw [hpass, hnone he]
  split <;> exact ⟨rfl, rfl⟩

theorem exec_loopPass_sameCounter {t : State} (hq : tickDue now s = false)
    (h : exec (.loopPass now) s = .next t) : SameCounter s t := by
  obtain ⟨hfree, rfl⟩ | ⟨_, rfl⟩ := exec_next_cases _ s t h
  · have hfree : s.seqFree = true := hfree
    rw [tickDue, hfree, Bool.true_and] at hq
    exact loopPass_sameCounter hq
  · exact .refl _

end

/-- Whether a pass ticks does not depend on the bits its sample loses at the port, nor on the requests. -/
theorem tickDue_dropRequest (now : Nat) (s : State) (rest : List Request) :
    tickDue (trunc s.cfg.timeW now) (s.dropRequest rest) = tickDue now s :=
  congrArg (s.seqFree && ·) (elapsed_trunc s.cfg.timeW now s.deadline)

/-! ### The steps that move the counter -/

section
variable {s : State} {rest : List Request}

theorem step_of_edge (hi : s.inner = none) (hp : s.pending = .edge :: rest) :
    step s = .next (tachoEdge (s.dropRequest rest)) :=
  (step_of_request hi hp).trans (exec_of_enabled rfl)

theorem step_of_reset {now : Nat} (hi : s.inner = none) (hp : s.pending = .reset now :: rest) :
    step s = .next (resetBlock (trunc s.cfg.timeW now) (s.dropRequest rest)) :=
  (step_of_request hi hp).trans (exec_of_enabled rfl)

/-- The step that serves a pass whose tick is due hands the whole window over. -/
theorem step_of_due_pass {now : Nat} (hi : s.inner = none) (hp : s.pending = .pass now :: rest)
    (hd : tickDue now s = true) : ∃ t, step s = .next t ∧ t.tachoCnt = 0 ∧ t.pulses = s.tachoCnt := by
  rw [← tickDue_dropRequest now s rest] at hd
  obtain ⟨hfree, he⟩ := Bool.and_eq_true_iff.mp hd
  exact ⟨_, (step_of_request hi hp).trans (exec_of_enabled hfree), loopPass_drains he⟩

end

/-! ### The steps that leave the counter alone -/

theorem decodeBurst_agent (c : Config) (b : List Byte) : (decodeBurst c b).agent = .bus := by
  obtain h | h := decodeBurst_cases c b <;> rw [h] <;> rfl

theorem decodeData_agent (p d : Byte) : (decodeData p d).agent = .bus := by
  obtain rfl | rfl | rfl | rfl | rfl | rfl | h := pointer_cases p
  iterate 6 · rfl
  · rw [decodeData_of_ge d h]
    rfl

/-- No calibration operation touches the counter or the drained window (R118 to R123). -/
theorem effect_decodeCal_sameCounter (active armed above full : Bool) (s : State) :
    SameCounter s (effect (decodeCal active armed above full) s) := by
  cases active <;> cases armed
  case true.false => cases above <;> cases full <;> exact ⟨rfl, rfl⟩
  all_goals exact ⟨rfl, rfl⟩

section
variable {s t : State}

/-- A step that begins inside a whole operation runs a data byte or a calibration step. -/
theorem step_of_place_sameCounter {q : Inner} (hi : s.inner = some q) (h : step s = .next t) :
    SameCounter s t := by
  cases q with
  | dataByte d =>
    have hd : decode s.cfg (s.innerFrame (.dataByte d)) = .ok (decodeData s.ptr d) := rfl
    rw [step_of_fetch (fetch_of_place hi) hd] at h
    exact (exec_busWrites (decodeData_agent s.ptr d) h).sameCounter
  | calStep =>
    rw [step_of_fetch (fetch_of_place hi) (decode_calStep s)] at h
    obtain ⟨_, rfl⟩ | ⟨_, rfl⟩ := exec_next_cases _ _ t h
    · exact effect_decodeCal_sameCounter _ _ _ _ s.leave
    · exact .refl s

/-- No request but an edge, a pass whose tick is due and RESET moves the counter (R103). -/
theorem step_of_quiet_sameCounter {r : Request} {rest : List Request} (hi : s.inner = none)
    (hp : s.pending = r :: rest) (hq : quiet r s = true) (h : step s = .next t) : SameCounter s t := by
  rw [step_of_request hi hp] at h
  cases r with
  | burst b => exact (exec_busWrites (decodeBurst_agent s.cfg b) h).sameCounter
  | readByte => exact (exec_busWrites rfl h).sameCounter
  | pass now =>
    have hd : tickDue now s = false := by simpa only [quiet, Bool.not_eq_true'] using hq
    rw [← tickDue_dropRequest now s rest] at hd
    exact exec_loopPass_sameCounter (s := s.dropRequest rest) hd h
  | release => obtain ⟨_, rfl⟩ | ⟨_, rfl⟩ := exec_next_cases _ _ t h <;> exact ⟨rfl, rfl⟩
  | edge | reset _ => cases hq

end

theorem not_quiet_cases {r : Request} {s : State} (h : quiet r s = false) :
    r = .edge ∨ (∃ now, r = .pass now ∧ tickDue now s = true) ∨ ∃ now, r = .reset now := by
  cases r with
  | edge => exact .inl rfl
  | pass now => exact .inr (.inl ⟨now, rfl, by simpa only [quiet, Bool.not_eq_false'] using h⟩)
  | reset now => exact .inr (.inr ⟨now, rfl⟩)
  | burst _ | readByte | release => cases h

/-- Settles O56: a step begins inside a whole operation, finds no request, or serves one, which is quiet or one
of the three that move the counter. -/
theorem counterMovesOnlyByEdgeTickAndReset : Obligations.CounterMovesOnlyByEdgeTickAndReset := by
  intro s t hs
  cases hi : s.inner with
  | some q => exact .inl (step_of_place_sameCounter hi hs)
  | none =>
    cases hp : s.pending with
    | nil =>
      rw [step_of_fetch_none (fetch_of_no_request hi hp)] at hs
      cases hs
      exact .inl (SameCounter.refl s)
    | cons r rest =>
      cases hq : quiet r s with
      | true => exact .inl (step_of_quiet_sameCounter hi hp hq hs)
      | false =>
        refine .inr ⟨rfl, rest, ?_⟩
        obtain rfl | ⟨now, rfl, hd⟩ | ⟨now, rfl⟩ := not_quiet_cases hq
        · cases (step_of_edge hi hp).symm.trans hs
          exact .inl ⟨rfl, rfl, rfl⟩
        · obtain ⟨u, hu, hcnt, hpulses⟩ := step_of_due_pass hi hp hd
          cases hu.symm.trans hs
          exact .inr (.inl ⟨now, rfl, hd, hcnt, hpulses⟩)
        · cases (step_of_reset hi hp).symm.trans hs
          exact .inr (.inr ⟨now, rfl, rfl⟩)

/-! ### The edges a run counts -/

theorem cfg_of_fetch {s u : State} {f : Frame} (hf : fetch s = some (f, u)) : u.cfg = s.cfg := by
  obtain ⟨q, _, hq⟩ | ⟨_, _, hn⟩ | ⟨r, rest, _, _, hr⟩ := fetch_cases s
  · rw [hq] at hf
    cases hf
    rfl
  · rw [hn] at hf
    cases hf
  · rw [hr] at hf
    cases hf
    rfl

/-- No step writes the parameters (R5 to R8). -/
theorem step_keeps_cfg {s t : State} (h : step s = .next t) : t.cfg = s.cfg := by
  obtain ⟨_, rfl⟩ | ⟨_, _, _, hf, _, hx⟩ := step_next_cases s t h
  · rfl
  · obtain ⟨hcfg, _, _⟩ := exec_keeps_requests hx
    exact hcfg.trans (cfg_of_fetch hf)

theorem inner_of_step {s t : State} (h : step s = .next t) : t.inner = none :=
  stepsEndBetweenWholeOperations.2 s t h

/-- Where the window opens: a tick or RESET leaves the counter at 0. -/
theorem tachoCnt_of_window_start {s t : State} (hi : s.inner = none)
    (hstart : (∃ now rest, s.pending = .pass now :: rest ∧ tickDue now s = true) ∨
      ∃ now rest, s.pending = .reset now :: rest)
    (h : step s = .next t) : t.tachoCnt = 0 := by
  obtain ⟨now, rest, hp, hd⟩ | ⟨now, rest, hp⟩ := hstart
  · obtain ⟨u, hu, hcnt, _⟩ := step_of_due_pass hi hp hd
    cases hu.symm.trans h
    exact hcnt
  · cases (step_of_reset hi hp).symm.trans h
    rfl

/-- Steps with no tick and no RESET among them add their edges to the counter, modulo its width. -/
theorem run_adds_edges {P : State → Prop} {s u : State} {n : Nat} (hi : s.inner = none)
    (hw : s.tachoCnt < 2 ^ s.cfg.tachoW) (hrun : Run P s 0 n u) :
    u.inner = none ∧ u.cfg = s.cfg ∧ u.tachoCnt = (s.tachoCnt + n) % 2 ^ s.cfg.tachoW := by
  generalize hk : 0 = k at hrun
  induction hrun with
  | start _ => exact ⟨hi, rfl, (Nat.mod_eq_of_lt hw).symm⟩
  | tick => cases hk
  | @edge _ n t _ _ _ hp hs _ ih =>
    obtain ⟨hinner, hcfg, hcnt⟩ := ih hk
    refine ⟨inner_of_step hs, (step_keeps_cfg hs).trans hcfg, ?_⟩
    cases (step_of_edge hinner hp).symm.trans hs
    calc (t.tachoCnt + 1) % 2 ^ t.cfg.tachoW
        = ((s.tachoCnt + n) % 2 ^ s.cfg.tachoW + 1) % 2 ^ s.cfg.tachoW := by rw [hcnt, hcfg]
      _ = (s.tachoCnt + (n + 1)) % 2 ^ s.cfg.tachoW := Nat.mod_add_mod ..
  | other _ hp hq hs _ ih =>
    obtain ⟨hinner, hcfg, hcnt⟩ := ih hk
    obtain ⟨hkept, _⟩ := step_of_quiet_sameCounter hinner hp hq hs
    exact ⟨inner_of_step hs, (step_keeps_cfg hs).trans hcfg, hkept.trans hcnt⟩

/-- Settles O20: the window opens with the counter at 0, the run adds its edges, and the tick drains the sum. -/
theorem windowCountsEveryEdgeOnce : Obligations.WindowCountsEveryEdgeOnce := by
  intro s0 s u n hi hstart hs hrun now rest hp hd
  have hzero : s.tachoCnt = 0 := tachoCnt_of_window_start hi hstart hs
  have hwidth : s.tachoCnt < 2 ^ s.cfg.tachoW := hzero ▸ Nat.two_pow_pos _
  obtain ⟨hinner, _, hcnt⟩ := run_adds_edges (inner_of_step hs) hwidth hrun
  obtain ⟨v, hv, hclear, hpulses⟩ := step_of_due_pass hinner hp hd
  rw [hcnt, hzero, Nat.zero_add] at hpulses
  exact ⟨v, hv, hpulses, hclear⟩

end Sys2Proof.Machine

/-!
PROOFS. The comparator: its reading as a two's complement sign, and its answer in terms of the true elapsed time
(R111, R112).
-/

namespace Sys2Proof.Machine

open Sys2Proof

/-! ### The comparator at its width -/

/-- R15's signed value of a word is its two's complement reading. -/
theorem signed_toNat {w : Nat} (x : BitVec w) : signed w x.toNat = x.toInt := by
  have hhalf : x.toNat < 2 ^ (w - 1) ↔ 2 * x.toNat < 2 ^ w := by
    cases w with
    | zero => simp [BitVec.toNat_of_zero_length rfl x]
    | succ n =>
      rw [Nat.add_sub_cancel, pow_succ]
      omega
  simp only [signed, hhalf, BitVec.toInt_eq_toNat_cond]

theorem ofInt_sub_natCast (w now dl : Nat) :
    BitVec.ofInt w ((now : Int) - dl) = BitVec.ofNat w now - BitVec.ofNat w dl := by
  rw [eq_sub_iff_add_eq, ← BitVec.ofInt_natCast, ← BitVec.ofInt_natCast, ← BitVec.ofInt_add, sub_add_cancel]

theorem truncInt_sub_natCast (w now dl : Nat) :
    truncInt w ((now : Int) - dl) = (BitVec.ofNat w now - BitVec.ofNat w dl).toNat := by
  rw [← ofInt_sub_natCast, BitVec.toNat_ofInt, truncInt]

/-- Settles O21: the difference is truncated as a bit vector's is, and its sign read as a bit vector's is. -/
theorem elapsedIsSignedWrappingDifference : Obligations.ElapsedIsSignedWrappingDifference := by
  intro w now dl
  rw [elapsed, truncInt_sub_natCast, signed_toNat]

/-! ### The comparator on real times -/

theorem truncInt_sub_truncInt (w : Nat) (t d : Int) :
    truncInt w ((truncInt w t : Int) - truncInt w d) = truncInt w (t - d) := by
  rw [truncInt_cast, truncInt_cast, truncInt, Int.emod_sub_emod, Int.sub_emod_emod, truncInt]

theorem truncInt_natCast (w n : Nat) : truncInt w n = trunc w n := by
  rw [truncInt, ← Int.natCast_emod, Int.toNat_natCast, trunc]

section
variable {w : Nat} {t d : Int}

/-- The comparator sees the true elapsed time modulo the range (R112). -/
theorem elapsed_truncInt_iff :
    elapsed w (truncInt w t) (truncInt w d) = true ↔
      (t - d) % ((2 ^ w : Nat) : Int) < ((2 ^ (w - 1) : Nat) : Int) := by
  rw [elapsed_iff, truncInt_sub_truncInt, ← truncInt_cast, Int.ofNat_lt]

theorem two_pow_eq_two_mul_half (hw : 1 ≤ w) : 2 ^ w = 2 * 2 ^ (w - 1) :=
  (mul_pow_sub_one (Nat.ne_of_gt hw) 2).symm

/-- From the deadline to the full wrap, the elapsed time is its own remainder: the comparator fires in the first
half of the range and misses the deadline in the second. -/
theorem elapsed_iff_of_nonneg (h0 : 0 ≤ t - d) (hlt : t - d < ((2 ^ w : Nat) : Int)) :
    elapsed w (truncInt w t) (truncInt w d) = true ↔ t - d < ((2 ^ (w - 1) : Nat) : Int) := by
  rw [elapsed_truncInt_iff, Int.emod_eq_of_lt h0 hlt]

/-- Up to half the range before the deadline, the remainder lies in the upper half of the range. -/
theorem elapsed_eq_false_of_neg (hw : 1 ≤ w) (hge : -((2 ^ (w - 1) : Nat) : Int) ≤ t - d) (hneg : t - d < 0) :
    elapsed w (truncInt w t) (truncInt w d) = false := by
  have hrange : ((2 ^ w : Nat) : Int) = 2 * ((2 ^ (w - 1) : Nat) : Int) := by
    exact_mod_cast two_pow_eq_two_mul_half hw
  have hmod : (t - d) % ((2 ^ w : Nat) : Int) = t - d + ((2 ^ w : Nat) : Int) := by
    rw [← Int.add_emod_right, Int.emod_eq_of_lt (by omega) (by omega)]
  rw [← Bool.not_eq_true, elapsed_truncInt_iff, hmod]
  omega

/-- Within half the range of the deadline the comparator is right (R112). -/
theorem elapsed_iff_of_half_range (hw : 1 ≤ w) (hge : -((2 ^ (w - 1) : Nat) : Int) ≤ t - d)
    (hlt : t - d < ((2 ^ (w - 1) : Nat) : Int)) :
    elapsed w (truncInt w t) (truncInt w d) = true ↔ 0 ≤ t - d := by
  have hrange := two_pow_eq_two_mul_half hw
  by_cases h0 : 0 ≤ t - d
  · rw [elapsed_iff_of_nonneg h0 (by omega)]
    exact iff_of_true hlt h0
  · rw [elapsed_eq_false_of_neg hw hge (not_le.mp h0)]
    exact iff_of_false (by decide) h0

end

/-- Settles O22: the elapsed time is before the deadline, in the first half of the range, or in the second. -/
theorem comparatorRightWithinHalfRange : Obligations.ComparatorRightWithinHalfRange := by
  intro w t d hw
  refine ⟨elapsed_truncInt_iff, elapsed_iff_of_half_range hw, fun hge hlt => ?_, fun period hp hge hneg => ?_⟩
  · rw [← Bool.not_eq_true, elapsed_iff_of_nonneg ((Int.natCast_nonneg _).trans hge) hlt]
    exact not_lt.mpr hge
  · exact elapsed_eq_false_of_neg hw (by omega) hneg

end Sys2Proof.Machine

/-!
PROOFS. The control loop: the calibration operations one by one, the tick and the pass, and the deadline a tick
sets (R110 to R123).
-/

namespace Sys2Proof.Machine

open Sys2Proof

/-! ### The calibration operation that is taken -/

theorem calState_stopRequested_iff (s : State) :
    s.calState = .stopRequested ↔ s.calActive = false ∧ s.calArmed = true := by
  unfold State.calState
  cases s.calActive <;> cases s.calArmed <;> decide

theorem calInstr_mem (s : State) :
    s.calInstr ∈ [Instr.calIdle, .calStop, .calToRamp, .calSuccess, .calRamp, .calFail] := by
  unfold State.calInstr
  cases s.calActive <;> cases s.calArmed
  case true.false => cases s.rpmAbove <;> cases s.pwmFull <;> decide
  all_goals simp [decodeCal]

/-- Outside the hold the operation of the CS word is taken (R66). -/
theorem exec_of_calInstr {s : State} (hf : s.indPhase = .free) {i : Instr} (hi : s.calInstr = i) :
    exec i s = .next (effect i s) := by
  subst hi
  exact exec_of_enabled ((enabled_cal_iff s hf _ (calInstr_mem s)).mpr rfl)

/-- CAL_STEP is the operation of the CS word (R66, R117). -/
theorem effect_calInstr (s : State) : effect s.calInstr s = calStep s := by
  unfold State.calInstr calStep State.calState
  cases s.calActive <;> cases s.calArmed
  case true.false =>
    by_cases ha : s.rpm > rpmThreshold <;> by_cases hp : s.pwmLevel.toNat < pwmMax <;>
      simp [calStateOf, decodeCal, State.rpmAbove, State.pwmFull, ha, hp, effect]
  all_goals rfl

/-! ### What each calibration operation does -/

/-- Settles O30: CAL_IDLE has no effect. -/
theorem calIdleChangesNothing : Obligations.CalIdleChangesNothing := fun _ => exec_of_effect_self rfl

theorem satAdd_toNat (v : Byte) (n : Nat) : (satAdd v n).toNat = min (v.toNat + n) 255 :=
  (BitVec.toNat_ofNat _ _).trans (Nat.mod_eq_of_lt (by unfold pwmMax; omega))

/-- Settles O31: CAL_STOP is the operation of StopRequested, and Status is the one cell it writes. -/
theorem calStopStopsTheFan : Obligations.CalStopStopsTheFan := by
  intro s hf hactive harmed
  have hi : s.calInstr = .calStop := by simp [calInstr_eq_table, hactive, harmed]
  exact ⟨calStop s, exec_of_calInstr hf hi, rfl, setReg_stores s 0 _⟩

/-- Settles O32: CAL_TO_RAMP is the operation of Stopping. -/
theorem calToRampClearsArmedOnly : Obligations.CalToRampClearsArmedOnly := by
  intro s hf hactive harmed
  have hi : s.calInstr = .calToRamp := by simp [calInstr_eq_table, hactive, harmed]
  exact exec_of_calInstr hf hi

/-- A calibration that succeeds stores the floor and then clears Status bit 0 (R121). -/
theorem calSuccess_read (s : State) (a : Nat) :
    (calSuccess s).mem.read a =
      if a = 0 then s.mem.read 0 &&& 0xFE#8 else if a = 2 then satAdd s.pwmLevel calMargin else s.mem.read a := by
  simp [calSuccess, Memory.read_write, State.reg]

theorem calSuccess_floor (s : State) : ((calSuccess s).mem.read 2).toNat = min (s.pwmLevel.toNat + 5) 255 := by
  rw [calSuccess_read]
  exact satAdd_toNat s.pwmLevel calMargin

/-- Settles O33: CAL_SUCCESS is the operation of Ramping with the rpm above the threshold. -/
theorem calSuccessSetsTheFloor : Obligations.CalSuccessSetsTheFloor := by
  intro s hf hactive harmed hrpm
  have hi : s.calInstr = .calSuccess := by simp [calInstr_eq_table, hactive, harmed, hrpm]
  refine ⟨calSuccess s, exec_of_calInstr hf hi, rfl, calSuccess_floor s, calSuccess_read s 0, fun a h0 h2 => ?_⟩
  rw [calSuccess_read, if_neg h0, if_neg h2]

/-- Settles O34: CAL_RAMP is the operation of Ramping with neither condition. -/
theorem calRampRaisesTheLevel : Obligations.CalRampRaisesTheLevel := by
  intro s hf hactive harmed hrpm hpwm
  have hi : s.calInstr = .calRamp := by simp [calInstr_eq_table, hactive, harmed, not_lt.mpr hrpm, hpwm]
  exact ⟨calRamp s, exec_of_calInstr hf hi, rfl, satAdd_toNat s.pwmLevel rampIncrement, setReg_stores s 0 _⟩

/-- Settles O35: CAL_FAIL is the operation of Ramping at the saturated level. -/
theorem calFailEndsWithTheFloorKept : Obligations.CalFailEndsWithTheFloorKept := by
  intro s hf hactive harmed hrpm hpwm
  have hi : s.calInstr = .calFail := by simp [calInstr_eq_table, hactive, harmed, not_lt.mpr hrpm, hpwm]
  exact ⟨calFail s, exec_of_calInstr hf hi, rfl, setReg_stores s 0 _⟩

/-! ### The tick and the pass -/

/-- The state a tick's calibration step runs on: drained, published and rearmed (R113). -/
def measured (now : Nat) (s : State) : State := rearm now (publish (drain s))

theorem measTick_eq_calStep (now : Nat) (s : State) : measTick now s = calStep (measured now s) := rfl

theorem exec_measTick_of_due {now : Nat} {s : State} (h : tickDue now s = true) :
    exec (.measTick now) s = .next (measTick now s) := exec_of_enabled h

theorem tickDue_of_free {now : Nat} {s : State} (hf : s.indPhase = .free) :
    tickDue now s = elapsed s.cfg.timeW now s.deadline := by
  rw [tickDue, seqFree_of_free hf, Bool.true_and]

theorem publish_reg_other (s : State) {a : Nat} (h3 : a ≠ 3) (h4 : a ≠ 4) (h5 : a ≠ 5) :
    (publish s).reg a = s.reg a := by
  rw [publish, reg_setReg_other _ _ _ _ h5, reg_setReg_other _ _ _ _ h4, reg_setReg_other _ _ _ _ h3]

/-- Settles O25: the tick is the calibration step of the state it drained, published and rearmed. -/
theorem measTickDrainsPublishesRearmsThenCalibrates :
    Obligations.MeasTickDrainsPublishesRearmsThenCalibrates := by
  intro now s hf he
  have hcal : exec (measured now s).calInstr (measured now s) = .next (measTick now s) := by
    rw [exec_of_calInstr (s := measured now s) hf rfl, effect_calInstr, measTick_eq_calStep]
  exact ⟨measured now s, (measured now s).calInstr, measTick now s, rfl,
    publish_reg_three (drain s), publish_reg_four (drain s), publish_reg_five (drain s),
    fun _ h3 h4 h5 => publish_reg_other (drain s) h3 h4 h5,
    decode_calStep _, hcal, exec_measTick_of_due ((tickDue_of_free hf).trans he)⟩

/-- A pass is the indicator service after a tick or after nothing, and neither of these moves the blink request or
the hold (R110). -/
theorem loopPass_service (now : Nat) (s : State) :
    ∃ u, (elapsed s.cfg.timeW now s.deadline = true → u = measTick now s) ∧
      (elapsed s.cfg.timeW now s.deadline = false → u = s) ∧
      u.blinkReq = s.blinkReq ∧ u.indPhase = s.indPhase ∧
      loopPass now s = if s.blinkReq then indAssert u else u := by
  obtain ⟨u, htick, hnone, hpass⟩ := loopPass_cases now s
  obtain ⟨hblink, hphase⟩ : u.blinkReq = s.blinkReq ∧ u.indPhase = s.indPhase := by
    cases he : elapsed s.cfg.timeW now s.deadline with
    | true =>
      rw [htick he, measTick_frame]
      exact ⟨rfl, rfl⟩
    | false =>
      rw [hnone he]
      exact ⟨rfl, rfl⟩
  exact ⟨u, htick, hnone, hblink, hphase, hpass⟩

/-- Settles O23: the tick where the comparator fires, then IND_ASSERT where a blink is requested. -/
theorem loopPassIsTickThenBlink : Obligations.LoopPassIsTickThenBlink := by
  intro now s hf
  obtain ⟨u, htick, hnone, hblink, hphase, hpass⟩ := loopPass_service now s
  have hfree := seqFree_of_free (hphase.trans hf)
  refine ⟨u, loopPass now s, exec_of_enabled (seqFree_of_free hf), fun he => ?_, hnone, fun hb => ?_, fun hb => ?_⟩
  · rw [htick he]
    exact exec_measTick_of_due ((tickDue_of_free hf).trans he)
  · rw [hpass, if_pos hb]
    exact ⟨exec_of_enabled (Bool.and_eq_true_iff.mpr ⟨hfree, hblink.trans hb⟩), rfl, rfl⟩
  · rw [hpass, hb]
    rfl

/-! ### The deadline a tick sets -/

/-- The comparator against a deadline one period after `t0`: it is right until half the range after that deadline,
since a period is below half the range (R6, R112). -/
theorem elapsed_after_rearm {c : Config} (hc : c.wf) (t0 : Nat) {e : Nat}
    (he : e < 2 ^ (c.timeW - 1) + c.periodMs) :
    elapsed c.timeW (trunc c.timeW (t0 + e)) (trunc c.timeW (t0 + c.periodMs)) = true ↔ c.periodMs ≤ e := by
  obtain ⟨_, hw, _, _, hperiod⟩ := hc
  rw [← truncInt_natCast, ← truncInt_natCast, elapsed_iff_of_half_range (by omega) (by omega) (by omega)]
  omega

/-- Settles O27: the tick leaves the deadline one period after its own sample. -/
theorem nextTickIsOnePeriodAfterThePass : Obligations.NextTickIsOnePeriodAfterThePass := by
  intro t0 e s hc hdue hblink hlt
  obtain ⟨hfree, helapsed⟩ := Bool.and_eq_true_iff.mp hdue
  have hpass : loopPass t0 s = measTick t0 s := by
    obtain ⟨u, htick, _, hservice⟩ := loopPass_cases t0 s
    rw [hservice, hblink, htick helapsed]
    rfl
  have hnext : tickDue (trunc s.cfg.timeW (t0 + e)) (measTick t0 s) =
      elapsed s.cfg.timeW (trunc s.cfg.timeW (t0 + e)) (trunc s.cfg.timeW (t0 + s.cfg.periodMs)) := by
    rw [measTick_frame]
    exact (congrArg (· && _) hfree).trans (Bool.true_and _)
  refine ⟨measTick t0 s, (exec_of_enabled (i := .loopPass t0) hfree).trans (congrArg _ hpass), ?_⟩
  rw [hnext]
  exact elapsed_after_rearm hc t0 hlt

end Sys2Proof.Machine

/-!
PROOFS. The calibration as a whole: which operations end and begin the lockout, and the schedule a calibration keeps
to along every run that stays LOCKED (R117 to R125).
-/

namespace Sys2Proof.Machine

open Sys2Proof

/-! ### The calibration step in each state -/

section
variable {s : State}

theorem calStep_of_idle (hc : s.calState = .idle) : calStep s = s := by
  simp [calStep, hc, calIdle]

theorem calStep_of_stopRequested (hc : s.calState = .stopRequested) : calStep s = calStop s := by
  simp [calStep, hc]

theorem calStep_of_stopping (hc : s.calState = .stopping) : calStep s = calToRamp s := by
  simp [calStep, hc]

theorem calStep_of_rpm_above (hc : s.calState = .ramping) (hr : s.rpm > rpmThreshold) :
    calStep s = calSuccess s := by
  simp [calStep, hc, hr]

theorem calStep_of_level_below (hc : s.calState = .ramping) (hr : s.rpm ≤ rpmThreshold)
    (hp : s.pwmLevel.toNat < pwmMax) : calStep s = calRamp s := by
  simp [calStep, hc, hr, hp]

theorem calStep_of_level_full (hc : s.calState = .ramping) (hr : s.rpm ≤ rpmThreshold)
    (hp : pwmMax ≤ s.pwmLevel.toNat) : calStep s = calFail s := by
  simp [calStep, hc, not_lt.mpr hr, not_lt.mpr hp]

theorem locked_of_stopRequested (hc : s.calState = .stopRequested) : s.locked = true := by
  obtain ⟨_, harmed⟩ := (calState_stopRequested_iff s).mp hc
  exact (locked_true_iff s).mpr (.inr harmed)

/-- Either end of a calibration clears the active flag, which in Ramping is the one that is set (R121, R123). -/
theorem calSuccess_calState (hc : s.calState = .ramping) : (calSuccess s).calState = .idle := by
  obtain ⟨_, harmed⟩ := (calState_ramping_iff s).mp hc
  exact (calState_idle_iff _).mpr ⟨rfl, harmed⟩

theorem calFail_calState (hc : s.calState = .ramping) : (calFail s).calState = .idle := by
  obtain ⟨_, harmed⟩ := (calState_ramping_iff s).mp hc
  exact (calState_idle_iff _).mpr ⟨rfl, harmed⟩

/-! ### The operations that end the lockout -/

/-- CAL_TO_RAMP clears one flag where the other is set (R120). -/
theorem calToRamp_locked (hc : s.calState = .stopping) : (calToRamp s).locked = s.locked := by
  obtain ⟨hactive, _⟩ := (calState_stopping_iff s).mp hc
  simp [State.locked, calToRamp, hactive]

theorem calStop_locked (hc : s.calState = .stopRequested) : (calStop s).locked = s.locked :=
  have hl : (calStop s).locked = true := rfl
  hl.trans (locked_of_stopRequested hc).symm

/-- Only from Ramping does a calibration step move the lockout (R117). -/
theorem calStep_locked_cases (s : State) : (calStep s).locked = s.locked ∨ s.calState = .ramping := by
  cases hc : s.calState with
  | idle => exact .inl (congrArg State.locked (calStep_of_idle hc))
  | stopRequested => exact .inl ((congrArg State.locked (calStep_of_stopRequested hc)).trans (calStop_locked hc))
  | stopping => exact .inl ((congrArg State.locked (calStep_of_stopping hc)).trans (calToRamp_locked hc))
  | ramping => exact .inr rfl

theorem measTick_locked_cases (now : Nat) (s : State) :
    (measTick now s).locked = s.locked ∨ s.calState = .ramping := calStep_locked_cases (measured now s)

theorem loopPass_locked_cases (now : Nat) (s : State) :
    (loopPass now s).locked = s.locked ∨
      s.calState = .ramping ∧ elapsed s.cfg.timeW now s.deadline = true := by
  obtain ⟨u, htick, hnone, hpass⟩ := loopPass_cases now s
  have hu : (loopPass now s).locked = u.locked := by
    rw [hpass]
    split <;> rfl
  rw [hu]
  cases he : elapsed s.cfg.timeW now s.deadline with
  | true =>
    rw [htick he]
    exact (measTick_locked_cases now s).imp_right (⟨·, rfl⟩)
  | false => exact .inl (congrArg State.locked (hnone he))

/-- What the sequencer can do to the lockout: nothing, or from Ramping what ends a calibration (R125). -/
theorem exec_seq_locked_cases {i : Instr} {t : State} (ha : i.agent = .seq) (h : exec i s = .next t) :
    t.locked = s.locked ∨ s.calState = .ramping ∧
      (i = .calSuccess ∨ i = .calFail ∨
        ∃ now, (i = .loopPass now ∨ i = .measTick now) ∧ tickDue now s = true) := by
  obtain ⟨he, rfl⟩ | ⟨_, rfl⟩ := exec_next_cases i s t h
  · cases i with
    | drain | calIdle | calRamp | indAssert | indRelease => exact .inl rfl
    | calStop =>
      obtain ⟨_, hc⟩ := Bool.and_eq_true_iff.mp he
      exact .inl (calStop_locked (beq_iff_eq.mp hc))
    | calToRamp =>
      obtain ⟨_, hc⟩ := Bool.and_eq_true_iff.mp he
      exact .inl (calToRamp_locked (beq_iff_eq.mp hc))
    | calSuccess =>
      simp only [enabled, Bool.and_eq_true, beq_iff_eq] at he
      obtain ⟨⟨_, hc⟩, _⟩ := he
      exact .inr ⟨hc, .inl rfl⟩
    | calFail =>
      simp only [enabled, Bool.and_eq_true, beq_iff_eq] at he
      obtain ⟨⟨⟨_, hc⟩, _⟩, _⟩ := he
      exact .inr ⟨hc, .inr (.inl rfl)⟩
    | measTick now =>
      exact (measTick_locked_cases now s).imp_right fun hc => ⟨hc, .inr (.inr ⟨now, .inr rfl, he⟩)⟩
    | loopPass now =>
      refine (loopPass_locked_cases now s).imp_right fun ⟨hc, hel⟩ => ⟨hc, .inr (.inr ⟨now, .inl rfl, ?_⟩)⟩
      exact Bool.and_eq_true_iff.mpr ⟨he, hel⟩
    | _ => cases ha
  · exact .inl rfl

/-! ### The operations that begin the lockout -/

theorem wrSpeed_locked (d : Byte) (s : State) : (wrSpeed d s).locked = s.locked := by
  cases hl : s.locked with
  | true => rwa [wrSpeed_of_locked d hl]
  | false =>
    rw [wrSpeed_of_unlocked d hl]
    exact hl

theorem wrFloor_locked (d : Byte) (s : State) : (wrFloor d s).locked = s.locked := by
  cases hl : s.locked with
  | true => rwa [wrFloor_of_locked d hl]
  | false =>
    rw [wrFloor_of_unlocked d hl]
    exact hl

/-- From `s` to `t` the lockout is as it was, or Status holds 0x01: all that BUS can do to it (R83). -/
def LocksByStatus (s t : State) : Prop := t.locked = s.locked ∨ t.mem.read 0 = 0x01#8

theorem wrStatus_locksByStatus (hu : s.locked = false) (d : Byte) : LocksByStatus s (wrStatus d s) := by
  obtain ⟨_, harmed⟩ := (locked_false_iff s).mp hu
  rw [wrStatus_of_unlocked d hu, and_one_eq]
  cases d.getLsbD 0 with
  | true => exact .inr (reg_setReg_same s 0 _)
  | false => exact .inl (congrArg (s.calActive || ·) harmed.symm)

theorem wrData_locksByStatus (hu : s.locked = false) (d : Byte) : LocksByStatus s (wrData d s) := by
  have key : LocksByStatus s (cellByte d s) := by
    unfold cellByte
    split
    · exact wrStatus_locksByStatus hu d
    · exact .inl (wrSpeed_locked d s)
    · exact .inl (wrFloor_locked d s)
    all_goals exact .inl rfl
  exact key

/-- The data byte that begins the lockout stores 0x01 in Status, and the lockout keeps it there from the bytes
after it (R83, R95). -/
theorem wrDataAll_locksByStatus (hu : s.locked = false) (ds : List Byte) : LocksByStatus s (wrDataAll ds s) := by
  induction ds generalizing s with
  | nil => exact .inl rfl
  | cons d ds ih =>
    have hfirst := wrData_locksByStatus hu d
    cases hl : (wrData d s).locked with
    | false => exact (ih hl).imp_left fun hrest => hrest.trans (hl.trans hu.symm)
    | true =>
      obtain hsame | hstatus := hfirst
      · exact absurd (hl.symm.trans (hsame.trans hu)) (by decide)
      · exact .inr ((wrDataAll_sameProtected hl ds).status.trans hstatus)

theorem writeBurst_locksByStatus (hu : s.locked = false) (b : List Byte) : LocksByStatus s (writeBurst b s) := by
  obtain ⟨_, hw⟩ | ⟨p, ds, _, _, hw⟩ := writeBurst_cases b s
  · exact .inl (congrArg State.locked hw)
  · rw [hw]
    exact wrDataAll_locksByStatus (s := wrPtr p s) hu ds

theorem effect_locksByStatus (hu : s.locked = false) {i : Instr} (ha : i.agent = .bus) :
    LocksByStatus s (effect i s) := by
  cases i with
  | writeBurst b => exact writeBurst_locksByStatus hu b
  | wrData d => exact wrData_locksByStatus hu d
  | wrStatus d => exact wrStatus_locksByStatus hu d
  | wrSpeed d => exact .inl (wrSpeed_locked d s)
  | wrFloor d => exact .inl (wrFloor_locked d s)
  | wrPtr _ | wrReject _ | wrRps _ | wrRpmLo _ | wrRpmHi _ | wrNone _ _ | read | applyLevel _ => exact .inl rfl
  | _ => cases ha

/-- What the bus can do to the lockout: begin it, in StopRequested and with 0x01 in Status (R83). -/
theorem exec_bus_locked_cases {i : Instr} {t : State} (ha : i.agent = .bus) (h : exec i s = .next t) :
    t.locked = s.locked ∨ s.locked = false ∧ t.calState = .stopRequested ∧ t.mem.read 0 = 0x01#8 := by
  have hactive : t.calActive = s.calActive := by rw [(exec_busWrites ha h).frame]
  cases hl : s.locked with
  | true =>
    have hp := exec_sameProtected hl ha h
    exact .inl ((congrArg₂ (· || ·) hp.active hp.armed).trans hl)
  | false =>
    obtain ⟨hidle, _⟩ := (locked_false_iff s).mp hl
    have hcases : LocksByStatus s t := by
      obtain ⟨_, rfl⟩ | ⟨_, rfl⟩ := exec_next_cases i s t h
      · exact effect_locksByStatus hl ha
      · exact .inl rfl
    cases ht : t.locked with
    | false => exact .inl rfl
    | true =>
      obtain hsame | hstatus := hcases
      · exact absurd (ht.symm.trans (hsame.trans hl)) (by decide)
      · have hna : t.calActive = false := hactive.trans hidle
        have harmed : t.calArmed = true := by simpa [State.locked, hna] using ht
        exact .inr ⟨rfl, (calState_stopRequested_iff t).mpr ⟨hna, harmed⟩, hstatus⟩

end

/-- Settles O37: agent by agent, what its operations can do to the lockout. -/
theorem lockoutSpansTheCalibration : Obligations.LockoutSpansTheCalibration := by
  intro i s t h
  by_cases hsame : t.locked = s.locked
  · rw [hsame]
    exact ⟨fun hl hu => absurd (hl.symm.trans hu) (by decide), fun hu hl => absurd (hl.symm.trans hu) (by decide)⟩
  cases ha : i.agent with
  | bus =>
    obtain ⟨hu, hc, hstatus⟩ := (exec_bus_locked_cases ha h).resolve_left hsame
    exact ⟨fun hl => absurd (hl.symm.trans hu) (by decide), fun _ _ => ⟨hc, .inr ⟨rfl, hstatus⟩⟩⟩
  | tacho => exact absurd (by rw [exec_tachoWrites ha h]; rfl) hsame
  | seq =>
    obtain ⟨hc, hends⟩ := (exec_seq_locked_cases ha h).resolve_left hsame
    obtain ⟨hactive, _⟩ := (calState_ramping_iff s).mp hc
    have hl := (locked_true_iff s).mpr (.inl hactive)
    exact ⟨fun _ _ => ⟨hc, hends⟩, fun hu => absurd (hl.symm.trans hu) (by decide)⟩
  | env =>
    cases i with
    | reset now =>
      cases h
      exact ⟨nofun, fun _ _ => ⟨rfl, .inl ⟨now, rfl⟩⟩⟩
    | _ => cases ha

/-! ### What the steps of a run do to a calibration -/

section
variable {s t : State}

theorem SameProtected.calState (h : SameProtected s t) : t.calState = s.calState :=
  congrArg₂ calStateOf h.active h.armed

theorem SameProtected.locked (h : SameProtected s t) : t.locked = s.locked :=
  congrArg₂ (· || ·) h.active h.armed

theorem dropRequest_sameProtected (s : State) (rest : List Request) : SameProtected s (s.dropRequest rest) :=
  ⟨rfl, rfl, rfl, rfl, rfl, rfl⟩

theorem tachoEdge_sameProtected (s : State) : SameProtected s (tachoEdge s) := ⟨rfl, rfl, rfl, rfl, rfl, rfl⟩

theorem indService_sameProtected (s : State) (b : Bool) : SameProtected s (if b then indAssert s else s) := by
  cases b <;> exact ⟨rfl, rfl, rfl, rfl, rfl, rfl⟩

/-- Draining, publishing and rearming leave all that the bus is locked out of (R113). -/
theorem measured_sameProtected (now : Nat) (s : State) : SameProtected s (measured now s) where
  status := publish_reg_other (drain s) (by decide) (by decide) (by decide)
  speed := publish_reg_other (drain s) (by decide) (by decide) (by decide)
  floor := publish_reg_other (drain s) (by decide) (by decide) (by decide)
  armed := rfl
  active := rfl
  level := rfl

/-- A pass that does not tick is at most the indicator service. -/
theorem exec_loopPass_sameProtected {now : Nat} (hd : tickDue now s = false)
    (h : exec (.loopPass now) s = .next t) : SameProtected s t := by
  obtain ⟨hfree, rfl⟩ | ⟨_, rfl⟩ := exec_next_cases _ s t h
  · have hfree : s.seqFree = true := hfree
    rw [tickDue, hfree, Bool.true_and] at hd
    obtain ⟨u, _, hnone, hpass⟩ := loopPass_cases now s
    rw [hnone hd] at hpass
    rw [effect, hpass]
    exact indService_sameProtected s s.blinkReq
  · exact .of_eq rfl

/-- While LOCKED no request but a due pass and RESET moves the calibration (R95, R125). -/
theorem step_of_quiet_sameProtected {r : Request} {rest : List Request} (hl : s.locked = true)
    (hi : s.inner = none) (hp : s.pending = r :: rest) (hq : quiet r s = true) (h : step s = .next t) :
    SameProtected s t := by
  rw [step_of_request hi hp] at h
  refine (dropRequest_sameProtected s rest).trans ?_
  cases r with
  | burst b => exact exec_sameProtected (s := s.dropRequest rest) hl (decodeBurst_agent s.cfg b) h
  | readByte => exact exec_sameProtected (s := s.dropRequest rest) hl rfl h
  | pass now =>
    have hd : tickDue now s = false := by simpa only [quiet, Bool.not_eq_true'] using hq
    rw [← tickDue_dropRequest now s rest] at hd
    exact exec_loopPass_sameProtected hd h
  | release => obtain ⟨_, rfl⟩ | ⟨_, rfl⟩ := exec_next_cases _ _ t h <;> exact ⟨rfl, rfl, rfl, rfl, rfl, rfl⟩
  | edge | reset _ => cases hq

/-- The step that serves a pass whose tick is due is the calibration step with the rpm of the drained window, and
then the indicator service. -/
theorem step_of_due_pass_calStep {now : Nat} {rest : List Request} (hi : s.inner = none)
    (hp : s.pending = .pass now :: rest) (hd : tickDue now s = true) :
    ∃ v u, step s = .next u ∧ SameProtected s v ∧ v.rpm = s.tachoCnt * 60 / s.cfg.periodS ∧
      SameProtected (calStep v) u := by
  rw [← tickDue_dropRequest now s rest] at hd
  obtain ⟨hfree, he⟩ := Bool.and_eq_true_iff.mp hd
  obtain ⟨w, htick, _, hpass⟩ := loopPass_cases (trunc s.cfg.timeW now) (s.dropRequest rest)
  refine ⟨measured (trunc s.cfg.timeW now) (s.dropRequest rest),
    loopPass (trunc s.cfg.timeW now) (s.dropRequest rest),
    (step_of_request hi hp).trans (exec_of_enabled hfree),
    (dropRequest_sameProtected s rest).trans (measured_sameProtected _ _), rfl, ?_⟩
  rw [← measTick_eq_calStep, ← htick he, hpass]
  exact indService_sameProtected w s.blinkReq

end

/-! ### The schedule of a calibration -/

/-- Where a calibration stands after `k` ticks, while it lasts (R124): after `j + 2` of them it starts its
Ramping tick number `j + 1`. -/
def CalSchedule : Nat → State → Prop
  | 0, s => s.calState = .stopRequested
  | 1, s => s.calState = .stopping ∧ s.pwmLevel = 0x00#8
  | j + 2, s => s.calState = .ramping ∧ s.pwmLevel.toNat = min (5 * j) 255 ∧ j ≤ 51

section
variable {k : Nat} {s t : State}

theorem CalSchedule.of_sameProtected (h : CalSchedule k s) (hp : SameProtected s t) : CalSchedule k t := by
  match k with
  | 0 => exact hp.calState.trans h
  | 1 => exact h.imp hp.calState.trans hp.level.trans
  | _ + 2 => exact h.imp hp.calState.trans (.imp_left (congrArg BitVec.toNat hp.level).trans)

theorem CalSchedule.ramping (h : CalSchedule k s) (hk : 2 ≤ k) :
    s.calState = .ramping ∧ s.pwmLevel.toNat = min (5 * (k - 2)) 255 := by
  obtain ⟨j, rfl⟩ := Nat.exists_eq_add_of_le' hk
  obtain ⟨hc, hp, _⟩ := h
  exact ⟨hc, hp⟩

theorem CalSchedule.le (h : CalSchedule k s) : k ≤ 53 := by
  match k with
  | 0 | 1 => decide
  | j + 2 =>
    obtain ⟨_, _, hj⟩ := h
    omega

/-- A tick that does not end the calibration moves it on by one place. -/
theorem CalSchedule.succ (h : CalSchedule k s) (hl : (calStep s).locked = true) :
    CalSchedule (k + 1) (calStep s) := by
  match k with
  | 0 =>
    obtain ⟨_, harmed⟩ := (calState_stopRequested_iff s).mp h
    rw [calStep_of_stopRequested h]
    exact ⟨(calState_stopping_iff _).mpr ⟨rfl, harmed⟩, rfl⟩
  | 1 =>
    obtain ⟨hc, hp⟩ := h
    obtain ⟨hactive, _⟩ := (calState_stopping_iff s).mp hc
    rw [calStep_of_stopping hc]
    exact ⟨(calState_ramping_iff _).mpr ⟨hactive, rfl⟩, congrArg BitVec.toNat hp, by decide⟩
  | j + 2 =>
    obtain ⟨hc, hp, hj⟩ := h
    by_cases hr : s.rpm > rpmThreshold
    · rw [calStep_of_rpm_above hc hr, (locked_false_iff_idle _).mpr (calSuccess_calState hc)] at hl
      cases hl
    · by_cases hfull : s.pwmLevel.toNat < pwmMax
      · rw [calStep_of_level_below hc (not_lt.mp hr) hfull]
        have hlevel : (calRamp s).pwmLevel.toNat = min (s.pwmLevel.toNat + 5) 255 := satAdd_toNat s.pwmLevel 5
        unfold pwmMax at hfull
        exact ⟨hc, by omega, by omega⟩
      · rw [calStep_of_level_full hc (not_lt.mp hr) (not_lt.mp hfull),
          (locked_false_iff_idle _).mpr (calFail_calState hc)] at hl
        cases hl

end

theorem Run.last {P : State → Prop} {s u : State} {k n : Nat} (h : Run P s k n u) : P u := by
  cases h <;> assumption

/-- Along a run that stays LOCKED only the ticks move the calibration. -/
theorem run_keeps_schedule {s u : State} {k n : Nat} (hi : s.inner = none) (hc : s.calState = .stopRequested)
    (hrun : Run (fun x => x.locked = true) s k n u) : u.inner = none ∧ CalSchedule k u := by
  induction hrun with
  | start _ => exact ⟨hi, hc⟩
  | edge _ hp hs _ ih =>
    obtain ⟨hinner, hk⟩ := ih
    refine ⟨inner_of_step hs, ?_⟩
    cases (step_of_edge hinner hp).symm.trans hs
    exact hk.of_sameProtected ((dropRequest_sameProtected _ _).trans (tachoEdge_sameProtected _))
  | tick _ hp hd hs hl ih =>
    obtain ⟨hinner, hk⟩ := ih
    refine ⟨inner_of_step hs, ?_⟩
    obtain ⟨v, _, hu, hv, _, hend⟩ := step_of_due_pass_calStep hinner hp hd
    cases hu.symm.trans hs
    exact ((hk.of_sameProtected hv).succ (hend.locked.symm.trans hl)).of_sameProtected hend
  | other hr hp hq hs _ ih =>
    obtain ⟨hinner, hk⟩ := ih
    exact ⟨inner_of_step hs, hk.of_sameProtected (step_of_quiet_sameProtected hr.last hinner hp hq hs)⟩

/-- Settles O36: the run keeps to the schedule, and the outcome of a further tick is that of its calibration
step. -/
theorem calibrationEndsWithinFiftyFourTicks : Obligations.CalibrationEndsWithinFiftyFourTicks := by
  intro s u k n hi hc hrun
  obtain ⟨hinner, hk⟩ := run_keeps_schedule hi hc hrun
  refine ⟨?_, ?_, hk.ramping, hk.le, fun now rest hp hd h2 => ?_⟩
  · rintro rfl
    exact hk
  · rintro rfl
    exact hk
  · obtain ⟨v, t, hs, hv, hrpm, hend⟩ := step_of_due_pass_calStep hinner hp hd
    obtain ⟨hramp, hlevel⟩ := (hk.of_sameProtected hv).ramping h2
    rw [← hrpm]
    refine ⟨t, hs, fun hr => ?_, fun hr hle => ?_, fun hr hlast => ?_⟩
    · rw [calStep_of_rpm_above hramp hr] at hend
      refine ⟨hend.calState.trans (calSuccess_calState hramp), ?_⟩
      rw [hend.floor, calSuccess_floor]
      omega
    · have hbelow : v.pwmLevel.toNat < pwmMax := by
        unfold pwmMax
        omega
      rw [calStep_of_level_below hramp hr hbelow] at hend
      exact hend.calState.trans hramp
    · have hfull : pwmMax ≤ v.pwmLevel.toNat := by
        unfold pwmMax
        omega
      rw [calStep_of_level_full hramp hr hfull] at hend
      refine ⟨hend.calState.trans (calFail_calState hramp), ?_⟩
      rw [hend.floor, ← hv.floor]
      exact reg_setReg_other v 0 2 _ (by decide)

end Sys2Proof.Machine

/-!
PROOFS. The speed driver: the remap as a number and what follows from it, APPLY_LEVEL, and the burst that writes
SpeedCommand and then MinPwmFloor (R130 to R133).
-/

namespace Sys2Proof.Machine

open Sys2Proof

/-! ### The remap as a number -/

/-- The proportional part is at most what is above the floor, so the byte is not truncated (R130). -/
theorem remap_le (v f : Byte) : f.toNat + v.toNat * (255 - f.toNat) / 255 ≤ 255 := by
  have hv : v.toNat ≤ 255 := Nat.le_of_lt_succ v.isLt
  have hf : f.toNat ≤ 255 := Nat.le_of_lt_succ f.isLt
  have hpart : v.toNat * (255 - f.toNat) / 255 ≤ 255 - f.toNat :=
    Nat.div_le_of_le_mul (Nat.mul_le_mul_right _ hv)
  omega

theorem level_zero (f : Byte) : level 0x00#8 f = 0x00#8 := if_pos rfl

theorem level_toNat_of_pos {v : Byte} (hv : 0 < v.toNat) (f : Byte) :
    (level v f).toNat = f.toNat + v.toNat * (255 - f.toNat) / 255 := by
  have hne : v ≠ 0x00#8 := by
    rintro rfl
    exact absurd hv (by decide)
  rw [level, if_neg hne]
  exact (BitVec.toNat_ofNat _ _).trans (Nat.mod_eq_of_lt (Nat.lt_succ_of_le (remap_le v f)))

/-- Settles O15: a speed of 0 is the first case of the remap, and in the other nothing is truncated. -/
theorem levelIsTruncatedLinearRemap : Obligations.LevelIsTruncatedLinearRemap := by
  intro v f
  split
  · next hv =>
    obtain rfl : v = 0x00#8 := BitVec.eq_of_toNat_eq hv
    exact congrArg BitVec.toNat (level_zero f)
  · next hv => exact level_toNat_of_pos (Nat.pos_of_ne_zero hv) f

/-! ### The properties of the remap -/

theorem level_toNat_mono {v w : Byte} (h : v.toNat ≤ w.toNat) (f : Byte) :
    (level v f).toNat ≤ (level w f).toNat := by
  obtain hv | hv := Nat.eq_zero_or_pos v.toNat
  · obtain rfl : v = 0x00#8 := BitVec.eq_of_toNat_eq hv
    rw [level_zero]
    exact Nat.zero_le _
  · rw [level_toNat_of_pos hv, level_toNat_of_pos (hv.trans_le h)]
    exact Nat.add_le_add_left (Nat.div_le_div_right (Nat.mul_le_mul_right _ h)) _

/-- At full speed the whole of what is above the floor is added to it. -/
theorem level_full (f : Byte) : level 0xFF#8 f = 0xFF#8 := by
  have hf : f.toNat ≤ 255 := Nat.le_of_lt_succ f.isLt
  have hfull : (0xFF#8 : Byte).toNat = 255 := rfl
  refine BitVec.eq_of_toNat_eq ?_
  rw [level_toNat_of_pos (by decide), hfull, Nat.mul_div_cancel_left _ (by decide), Nat.add_sub_cancel' hf]

theorem floor_le_level {v : Byte} (hv : 0 < v.toNat) (f : Byte) : f.toNat ≤ (level v f).toNat := by
  rw [level_toNat_of_pos hv]
  exact Nat.le_add_right _ _

/-- Settles O16: each property is read off the remap's number. -/
theorem levelPropertiesOfTheRemap : Obligations.LevelPropertiesOfTheRemap :=
  ⟨fun f _ _ h => level_toNat_mono h f, level_zero, level_full, fun _ f hv => floor_le_level hv f⟩

/-! ### APPLY_LEVEL -/

theorem enabled_applyLevel (v : Byte) (s : State) : enabled (.applyLevel v) s = !s.locked := rfl

/-- Settles O17: APPLY_LEVEL is selected exactly outside the lockout. -/
theorem applyLevelDrivesOutput : Obligations.ApplyLevelDrivesOutput := by
  refine fun v s => ⟨fun hu => ?_, fun hl => ?_⟩
  · have he : enabled (.applyLevel v) s = true := by rw [enabled_applyLevel, hu, Bool.not_false]
    exact ⟨applyLevel v s, exec_of_enabled he, rfl, rfl⟩
  · have he : enabled (.applyLevel v) s = false := by rw [enabled_applyLevel, hl, Bool.not_true]
    exact (exec_eq_perform _ s).trans (perform_of_disabled _ _ s he)

/-! ### The burst of a speed and a floor -/

section
variable {s : State}

/-- The data byte at PTR = 1 outside the lockout (R84). -/
theorem wrData_at_one (d : Byte) (hp : s.ptr = 0x01#8) (hl : s.locked = false) :
    wrData d s = { s.setReg 1 d with ptr := 0x02#8, pwmLevel := level d (s.reg 2) } := by
  have hcell : cellByte d s = applyLevel (level d (s.reg 2)) (s.setReg 1 d) := by
    rw [cellByte, hp]
    exact wrSpeed_of_unlocked d hl
  have hadv : adv s.ptr = 0x02#8 := congrArg adv hp
  rw [wrData, hcell, ← hadv]
  rfl

/-- The data byte at PTR = 2 outside the lockout (R85). -/
theorem wrData_at_two (d : Byte) (hp : s.ptr = 0x02#8) (hl : s.locked = false) :
    wrData d s = { s.setReg 2 d with ptr := 0x03#8, pwmLevel := level (s.reg 1) d } := by
  have hcell : cellByte d s = applyLevel (level (s.reg 1) d) (s.setReg 2 d) := by
    rw [cellByte, hp]
    exact wrFloor_of_unlocked d hl
  have hadv : adv s.ptr = 0x03#8 := congrArg adv hp
  rw [wrData, hcell, ← hadv]
  rfl

/-- The second recompute reads the speed the first byte has just stored, so the first level is overwritten
(R133). -/
theorem wrDataAll_speed_floor (v f : Byte) (hp : s.ptr = 0x01#8) (hl : s.locked = false) :
    wrDataAll [v, f] s = { (s.setReg 1 v).setReg 2 f with ptr := 0x03#8, pwmLevel := level v f } := by
  have hstored : (s.setReg 1 v).reg 1 = v := reg_setReg_same s 1 v
  have hfirst := wrData_at_one v hp hl
  have hsecond := wrData_at_two (s := wrData v s) f (by rw [hfirst]) (by rw [hfirst]; exact hl)
  calc wrDataAll [v, f] s
      = { (wrData v s).setReg 2 f with ptr := 0x03#8, pwmLevel := level ((wrData v s).reg 1) f } := hsecond
    _ = { (s.setReg 1 v).setReg 2 f with ptr := 0x03#8, pwmLevel := level ((s.setReg 1 v).reg 1) f } := by
        rw [hfirst]; rfl
    _ = _ := by rw [hstored]

theorem setReg_one_two_stores (v f : Byte) :
    ((s.setReg 1 v).setReg 2 f).mem.read 1 = v ∧ ((s.setReg 1 v).setReg 2 f).mem.read 2 = f ∧
      ∀ a, a ≠ 1 → a ≠ 2 → ((s.setReg 1 v).setReg 2 f).mem.read a = s.mem.read a := by
  obtain ⟨hspeed, hother⟩ := setReg_stores s 1 v
  obtain ⟨hfloor, hother'⟩ := setReg_stores (s.setReg 1 v) 2 f
  exact ⟨(hother' 1 (by decide)).trans hspeed, hfloor, fun a h1 h2 => (hother' a h2).trans (hother a h1)⟩

end

/-- Settles O13: the two data bytes run at PTR = 1 and PTR = 2, each on the state the one before left. -/
theorem speedThenFloorBurstRecomputesLast : Obligations.SpeedThenFloorBurstRecomputesLast := by
  intro v f s hl hlen
  have hbytes := wrDataAll_speed_floor (s := wrPtr 0x01#8 s) v f rfl hl
  have hburst := writeBurst_of_accepted 0x01#8 [v, f] hlen
  rw [hbytes] at hburst
  exact ⟨_, (exec_of_enabled rfl).trans (congrArg _ hburst), rfl, setReg_one_two_stores v f⟩

end Sys2Proof.Machine

/-!
PROOFS. The indicator side-channel: when a blink begins and when it ends (spec/44_indicator.md R140, R141).
-/

namespace Sys2Proof.Machine

open Sys2Proof

/-! ### When the two ends of a blink are selected -/

/-- A blink begins where the sequencer is free and one is requested (R140). -/
theorem enabled_indAssert_iff (s : State) :
    enabled .indAssert s = true ↔ s.indPhase = .free ∧ s.blinkReq = true := by
  simp [enabled, State.seqFree]

/-- A blink ends in the hold alone (R141). -/
theorem enabled_indRelease_iff (s : State) : enabled .indRelease s = true ↔ s.indPhase = .holding := by
  simp [enabled]

/-- Settles O39: IND_ASSERT is selected by the request outside the hold. -/
theorem indAssertBeginsTheHold : Obligations.IndAssertBeginsTheHold := by
  intro s hfree hreq
  exact exec_of_enabled ((enabled_indAssert_iff s).mpr ⟨hfree, hreq⟩)

/-- Settles O40: IND_RELEASE is selected in the hold, and in Free it is not. -/
theorem indReleaseEndsTheHold : Obligations.IndReleaseEndsTheHold := by
  intro s
  refine ⟨fun hhold => exec_of_enabled ((enabled_indRelease_iff s).mpr hhold), fun hfree => ?_⟩
  have hoff : enabled .indRelease s = false := by
    rw [← Bool.not_eq_true, enabled_indRelease_iff, hfree]
    decide
  exact (exec_eq_perform .indRelease s).trans (perform_of_disabled _ _ s hoff)

end Sys2Proof.Machine

/-!
PROOFS. No faults and no refusals: every step completes (spec/60_exceptions.md R150, R18).
-/

namespace Sys2Proof.Machine

open Sys2Proof

/-! ### Every word the block forms is a decode word -/

/-- The word of a place decodes: WD for every pointer and byte (R63), CS for every flag and condition (R66). -/
theorem decode_innerFrame (s : State) (q : Inner) : ∃ i, decode s.cfg (s.innerFrame q) = .ok i := by
  cases q with
  | dataByte d => exact ⟨decodeData s.ptr d, rfl⟩
  | calStep => exact ⟨s.calInstr, decode_calStep s⟩

theorem decode_of_fetch {s u : State} {f : Frame} (hf : fetch s = some (f, u)) :
    ∃ i, decode u.cfg f = .ok i := by
  obtain ⟨q, _, hq⟩ | ⟨_, _, hn⟩ | ⟨r, rest, _, _, hr⟩ := fetch_cases s
  · rw [hq] at hf
    cases hf
    exact decode_innerFrame s q
  · rw [hn] at hf
    cases hf
  · rw [hr] at hf
    cases hf
    exact ⟨r.instr s.cfg, decode_frameOf s r⟩

/-! ### Every operation completes -/

theorem exec_has_next (i : Instr) (s : State) : ∃ t, exec i s = .next t := by
  rw [exec_eq_perform]
  exact perform_next i (effect i) s

/-- Settles O47: with no word fetched the state stays; a word fetched decodes, and its operation completes. -/
theorem everyStepHasANextState : Obligations.EveryStepHasANextState := by
  intro s
  cases hf : fetch s with
  | none => exact ⟨s, step_of_fetch_none hf⟩
  | some word =>
    obtain ⟨i, hd⟩ := decode_of_fetch hf
    rw [step_of_fetch hf hd]
    exact exec_has_next i word.2

end Sys2Proof.Machine

/-!
PROOFS. Reset and hazards: the values RESET sets (R170), blinks that merge during a hold (R177), the fan at the end
of a calibration (R178), and the telemetry cells no pass reads (R181).
-/

namespace Sys2Proof.Machine

open Sys2Proof

/-! ### Reset -/

/-- Settles O42: RESET is selected in every state, and its effect does not depend on the state of the block. -/
theorem resetSetsEveryPieceOfState : Obligations.ResetSetsEveryPieceOfState := fun now s =>
  ⟨resetBlock now s, exec_of_enabled rfl, Memory.read_empty, rfl, rfl, rfl, rfl, rfl, rfl, rfl, rfl, rfl⟩

/-! ### Blinks during a hold -/

/-- A pass that is no tick and finds no blink requested has nothing to do (R110). -/
theorem loopPass_of_nothing_due {now : Nat} {s : State} (he : elapsed s.cfg.timeW now s.deadline = false)
    (hb : s.blinkReq = false) : loopPass now s = s := by
  obtain ⟨u, _, hnone, hpass⟩ := loopPass_cases now s
  rw [hpass, hb, hnone he]
  rfl

/-- Settles O41: the transaction leaves the hold standing, and the release that ends it clears the one request
flag, that of the transaction included. -/
theorem blinksDuringAHoldMerge : Obligations.BlinksDuringAHoldMerge := by
  intro b now s hhold
  have hstill : (writeBurst b s).indPhase = .holding := by
    rw [(writeBurst_busWrites b s).frame]
    exact hhold
  obtain ⟨hrelease, _⟩ := indReleaseEndsTheHold (writeBurst b s)
  refine ⟨writeBurst b s, indRelease (writeBurst b s), exec_of_enabled rfl, hrelease hstill, rfl, fun he => ?_⟩
  exact (exec_of_enabled rfl).trans (congrArg _ (loopPass_of_nothing_due he rfl))

/-! ### The end of a calibration -/

/-- The level is 0 and Status bit 0 is clear: no calibration is reported and the fan is stopped (R178). -/
def FanStopped (s : State) : Prop := s.pwmLevel = 0x00#8 ∧ s.mem.read 0 &&& 0x01#8 = 0x00#8

theorem calFail_fanStopped (s : State) : FanStopped (calFail s) := by
  refine ⟨rfl, ?_⟩
  have hstatus : (calFail s).mem.read 0 = s.reg 0 &&& 0xFE#8 := reg_setReg_same s 0 _
  rw [hstatus, BitVec.and_assoc]
  exact BitVec.and_zero

/-- A calibration that succeeds stores the floor and then ends as one that fails (R121, R123). -/
theorem calSuccess_fanStopped (s : State) : FanStopped (calSuccess s) :=
  calFail_fanStopped (s.setReg 2 (satAdd s.pwmLevel calMargin))

/-- Of the three Ramping operations CAL_RAMP alone keeps the lockout, so that one of the other two ends it. -/
theorem calStep_fanStopped {s : State} (hc : s.calState = .ramping) (hu : (calStep s).locked = false) :
    FanStopped (calStep s) := by
  obtain ⟨hactive, _⟩ := (calState_ramping_iff s).mp hc
  by_cases hr : s.rpm > rpmThreshold
  · rw [calStep_of_rpm_above hc hr]
    exact calSuccess_fanStopped s
  · by_cases hp : s.pwmLevel.toNat < pwmMax
    · rw [calStep_of_level_below hc (not_lt.mp hr) hp] at hu
      have hl : (calRamp s).locked = true := (locked_true_iff _).mpr (.inl hactive)
      exact absurd (hl.symm.trans hu) (by decide)
    · rw [calStep_of_level_full hc (not_lt.mp hr) (not_lt.mp hp)]
      exact calFail_fanStopped s

theorem SameProtected.fanStopped {s t : State} (h : SameProtected s t) (hs : FanStopped s) : FanStopped t :=
  hs.imp h.level.trans (congrArg (· &&& 0x01#8) h.status).trans

/-- A pass that ends the lockout ticks in Ramping, and the indicator service after the tick leaves the level and
Status alone. -/
theorem loopPass_fanStopped {now : Nat} {s : State} (hl : s.locked = true) (hu : (loopPass now s).locked = false) :
    FanStopped (loopPass now s) := by
  have hmoved : (loopPass now s).locked ≠ s.locked := by
    rw [hl, hu]
    decide
  obtain ⟨hc, he⟩ := (loopPass_locked_cases now s).resolve_left hmoved
  obtain ⟨u, htick, _, hpass⟩ := loopPass_cases now s
  have hservice : SameProtected u (loopPass now s) := by
    rw [hpass]
    exact indService_sameProtected u s.blinkReq
  rw [htick he, measTick_eq_calStep] at hservice
  exact hservice.fanStopped (calStep_fanStopped (s := measured now s) hc (hservice.locked.symm.trans hu))

/-- Settles O38: no operation of the sequencer writes SpeedCommand, and a pass that ends the lockout ends it by
stopping the fan. -/
theorem fanStoppedAfterCalibration : Obligations.FanStoppedAfterCalibration := by
  intro now s t hl h hu
  have hspeed : t.mem.read 1 = s.mem.read 1 := (exec_seqWrites rfl h).speed
  obtain ⟨_, rfl⟩ | ⟨_, rfl⟩ := exec_next_cases _ s t h
  · obtain ⟨hlevel, hstatus⟩ := loopPass_fanStopped hl hu
    exact ⟨hlevel, hspeed, hstatus⟩
  · exact absurd (hl.symm.trans hu) (by decide)

/-! ### Two states that differ in one cell at most -/

/-- The state `t` is `s` but for the register file, which reads as that of `s` at every index other than `a`. -/
def SameOutside (a : Nat) (s t : State) : Prop :=
  ∃ m : Memory, t = { s with mem := m } ∧ ∀ b, b ≠ a → m.read b = s.mem.read b

theorem setReg_sameOutside (a : Nat) (v : Byte) (s : State) : SameOutside a s (s.setReg a v) :=
  ⟨s.mem.write a v, rfl, fun b hb => Memory.read_write_other s.mem a b v hb⟩

section
variable {a : Nat} {s t : State}

theorem SameOutside.reg_eq (h : SameOutside a s t) {b : Nat} (hb : b ≠ a) : t.reg b = s.reg b := by
  obtain ⟨m, rfl, hm⟩ := h
  exact hm b hb

/-! ### The updates a pass is made of keep two such states the same outside the cell -/

theorem SameOutside.setReg (h : SameOutside a s t) (i : Nat) (v : Byte) :
    SameOutside a (s.setReg i v) (t.setReg i v) := by
  obtain ⟨m, rfl, hm⟩ := h
  refine ⟨m.write i v, rfl, fun b hb => ?_⟩
  rw [setReg_mem, Memory.read_write, Memory.read_write, hm b hb]

/-- An update that neither reads nor writes the register file. -/
theorem SameOutside.update (h : SameOutside a s t) {f : State → State}
    (hf : ∀ m, f { s with mem := m } = { f s with mem := m }) (hmem : (f s).mem = s.mem) :
    SameOutside a (f s) (f t) := by
  obtain ⟨m, rfl, hm⟩ := h
  exact ⟨m, hf m, fun b hb => (hm b hb).trans (congrArg (Memory.read · b) hmem.symm)⟩

theorem SameOutside.setLevelActive (h : SameOutside a s t) (pwm : Byte) (active : Bool) :
    SameOutside a { s with pwmLevel := pwm, calActive := active } { t with pwmLevel := pwm, calActive := active } :=
  h.update (f := fun x => { x with pwmLevel := pwm, calActive := active }) (fun _ => rfl) rfl

theorem SameOutside.drain (h : SameOutside a s t) : SameOutside a (drain s) (drain t) :=
  h.update (fun _ => rfl) rfl

theorem SameOutside.rearm (h : SameOutside a s t) (now : Nat) : SameOutside a (rearm now s) (rearm now t) :=
  h.update (fun _ => rfl) rfl

theorem SameOutside.indAssert (h : SameOutside a s t) : SameOutside a (indAssert s) (indAssert t) :=
  h.update (fun _ => rfl) rfl

theorem SameOutside.calToRamp (h : SameOutside a s t) : SameOutside a (calToRamp s) (calToRamp t) :=
  h.update (fun _ => rfl) rfl

/-- What is published comes from the drained window, not from the cells (R115). -/
theorem SameOutside.publish (h : SameOutside a s t) : SameOutside a (publish s) (publish t) := by
  have hrps := h.setReg 3 (trunc8 (rpsOf s.cfg s.pulses))
  have hcells := (hrps.setReg 4 (trunc8 s.rpm)).setReg 5 (trunc8 (s.rpm / 256))
  obtain ⟨m, rfl, _⟩ := h
  exact hcells

/-! ### The calibration step reads Status alone -/

theorem SameOutside.setCalBit (h : SameOutside a s t) (h0 : 0 ≠ a) : SameOutside a s.setCalBit t.setCalBit := by
  rw [State.setCalBit, State.setCalBit, h.reg_eq h0]
  exact h.setReg 0 _

theorem SameOutside.clearCalBit (h : SameOutside a s t) (h0 : 0 ≠ a) :
    SameOutside a s.clearCalBit t.clearCalBit := by
  rw [State.clearCalBit, State.clearCalBit, h.reg_eq h0]
  exact h.setReg 0 _

theorem SameOutside.calStop (h : SameOutside a s t) (h0 : 0 ≠ a) : SameOutside a (calStop s) (calStop t) :=
  (h.setCalBit h0).setLevelActive 0x00#8 true

theorem SameOutside.calFail (h : SameOutside a s t) (h0 : 0 ≠ a) : SameOutside a (calFail s) (calFail t) :=
  (h.clearCalBit h0).setLevelActive 0x00#8 false

theorem SameOutside.calSuccess (h : SameOutside a s t) (h0 : 0 ≠ a) :
    SameOutside a (calSuccess s) (calSuccess t) := by
  have hend := (h.setReg 2 (satAdd s.pwmLevel calMargin)).calFail h0
  obtain ⟨m, rfl, _⟩ := h
  exact hend

theorem SameOutside.calRamp (h : SameOutside a s t) (h0 : 0 ≠ a) : SameOutside a (calRamp s) (calRamp t) := by
  have hramp := (h.setCalBit h0).setLevelActive (satAdd s.pwmLevel rampIncrement) s.calActive
  obtain ⟨m, rfl, _⟩ := h
  exact hramp

/-- The calibration step takes the same branch in both states: the flags, the rpm and the level decide it, and no
cell does (R117). -/
theorem SameOutside.calStep (h : SameOutside a s t) (h0 : 0 ≠ a) : SameOutside a (calStep s) (calStep t) := by
  obtain ⟨hstate, hrpm, hlevel⟩ : t.calState = s.calState ∧ t.rpm = s.rpm ∧ t.pwmLevel = s.pwmLevel := by
    obtain ⟨m, rfl, _⟩ := h
    exact ⟨rfl, rfl, rfl⟩
  unfold Machine.calStep
  rw [hstate, hrpm, hlevel]
  split
  · exact h
  · exact h.calStop h0
  · exact h.calToRamp
  · split
    · exact h.calSuccess h0
    · split
      · exact h.calRamp h0
      · exact h.calFail h0

/-! ### The tick and the pass -/

theorem SameOutside.measTick (h : SameOutside a s t) (h0 : 0 ≠ a) (now : Nat) :
    SameOutside a (measTick now s) (measTick now t) :=
  (h.drain.publish.rearm now).calStep h0

/-- Both states tick or neither does, and both blink or neither does (R110). -/
theorem SameOutside.loopPass (h : SameOutside a s t) (h0 : 0 ≠ a) (now : Nat) :
    SameOutside a (loopPass now s) (loopPass now t) := by
  obtain ⟨hdue, hblink⟩ : elapsed t.cfg.timeW now t.deadline = elapsed s.cfg.timeW now s.deadline ∧
      t.blinkReq = s.blinkReq := by
    obtain ⟨m, rfl, _⟩ := h
    exact ⟨rfl, rfl⟩
  obtain ⟨u, htick, hnone, hpass⟩ := loopPass_cases now s
  obtain ⟨v, htick', hnone', hpass'⟩ := loopPass_cases now t
  rw [hdue] at htick' hnone'
  have huv : SameOutside a u v := by
    cases he : elapsed s.cfg.timeW now s.deadline with
    | true =>
      rw [htick he, htick' he]
      exact h.measTick h0 now
    | false =>
      rw [hnone he, hnone' he]
      exact h
  rw [hpass, hpass', hblink]
  split
  · exact huv.indAssert
  · exact huv

/-- The hold lets both passes through or neither. -/
theorem SameOutside.exec_loopPass {now : Nat} {u : State} (h : SameOutside a s t) (h0 : 0 ≠ a)
    (hx : exec (.loopPass now) s = .next u) : ∃ v, exec (.loopPass now) t = .next v ∧ SameOutside a u v := by
  have henabled : enabled (.loopPass now) t = enabled (.loopPass now) s := by
    obtain ⟨m, rfl, _⟩ := h
    rfl
  obtain ⟨he, rfl⟩ | ⟨he, rfl⟩ := exec_next_cases _ s u hx
  · exact ⟨_, exec_of_enabled (henabled.trans he), h.loopPass h0 now⟩
  · exact ⟨t, (exec_eq_perform _ t).trans (perform_of_disabled _ _ t (henabled.trans he)), h⟩

end

/-- Settles O28: a pass keeps two states the same outside a telemetry cell, since of the cells it reads Status
alone. -/
theorem telemetryCellsInfluenceNoPass : Obligations.TelemetryCellsInfluenceNoPass := by
  intro now a v s t ha h
  obtain ⟨t', hx, m, rfl, hcells⟩ := (setReg_sameOutside a v s).exec_loopPass (by omega) h
  exact ⟨_, hx, rfl, hcells⟩

end Sys2Proof.Machine

/-!
PROOFS. What is left of the machine as a whole: the word of every operation read back (spec/30_encoding.md R60 to
R67, R74), the first state and RESET's other fields (R40, R170), and the operations that are not selected.
-/

namespace Sys2Proof.Machine

open Sys2Proof

/-! ### The word of an operation, read back -/

theorem trunc_of_lt {w v : Nat} (h : v < 2 ^ w) : trunc w v = v := Nat.mod_eq_of_lt h

/-- A time sample that fits the port is read back whole, on each line that carries one (R67). -/
theorem decodeTime_of_lt {c : Config} {now : Nat} (line : Line) (mk : Nat → Instr) (h : now < 2 ^ c.timeW) :
    decodeTime c line mk (toBytes (timeBytes c) now) = .ok (mk now) := by
  have hsample := decodeTime_sample c line mk now
  rwa [trunc_of_lt h] at hsample

theorem not_acceptedLength_iff {c : Config} {k : Nat} :
    (!acceptedLength c k) = true ↔ ¬(1 ≤ k ∧ k ≤ c.rxbufN) := by
  rw [Bool.not_eq_true', ← Bool.not_eq_true, acceptedLength_iff]

/-- Settles O51: well-formedness is used by the three formats that decide on it, the count of WT, the pointer of WD
outside the register file, and the width of a time sample; the words of the other operations name them outright. -/
theorem decodeInvertsEncode : Obligations.DecodeInvertsEncode := by
  intro c i hwf
  cases i with
  | writeBurst b => exact congrArg Except.ok (decodeBurst_of_accepted (acceptedLength_iff.mp hwf))
  | wrReject b => exact congrArg Except.ok (decodeBurst_of_rejected (not_acceptedLength_iff.mp hwf))
  | wrNone p d => exact congrArg Except.ok (decodeData_of_ge d (of_decide_eq_true hwf))
  | loopPass now => exact decodeTime_of_lt .lp .loopPass (of_decide_eq_true hwf)
  | measTick now => exact decodeTime_of_lt .evTick .measTick (of_decide_eq_true hwf)
  | reset now => exact decodeTime_of_lt .rs .reset (of_decide_eq_true hwf)
  | wrPtr | wrData | read | applyLevel => rfl
  | wrStatus | wrSpeed | wrFloor | wrRps | wrRpmLo | wrRpmHi => rfl
  | calIdle | calStop | calToRamp | calSuccess | calRamp | calFail => rfl
  | tachoEdge | drain | indAssert | indRelease => rfl

/-! ### Reset -/

/-- Settles O43: the effect of RESET names the two result registers, and none of the fields kept. -/
theorem resetClearsResultsAndKeepsInputs : Obligations.ResetClearsResultsAndKeepsInputs := fun now s =>
  ⟨resetBlock now s, exec_of_enabled rfl, rfl, rfl, rfl, rfl, rfl⟩

/-- The first state is the one RESET leaves at time 0 (log entry 3). -/
theorem resetBlock_zero_reset : resetBlock 0 State.reset = State.reset := rfl

/-- The defaults meet the bounds of R5 to R8. -/
theorem standard_wf : Config.standard.wf := by decide

/-- Settles O44: no cell is listed, so that each reads 0x00; DEADLINE is one period of 3 seconds. -/
theorem resetStateHasTheSpecsValues : Obligations.ResetStateHasTheSpecsValues :=
  ⟨Memory.read_empty, rfl, rfl, rfl, rfl, rfl, rfl, rfl, rfl, standard_wf⟩

/-- Settles O46: RESET establishes the invariant from any state, and the first state is one it leaves. -/
theorem resetSatisfiesTheInvariant : Obligations.ResetSatisfiesTheInvariant := by
  unfold Obligations.ResetSatisfiesTheInvariant
  rw [← resetBlock_zero_reset]
  exact resetBlock_inv 0 State.reset

/-! ### Operations that are not selected -/

/-- Settles O50: every operation is performed under its own selecting condition, and not at all without it. -/
theorem unselectedOperationsChangeNothing : Obligations.UnselectedOperationsChangeNothing := fun i s h =>
  (exec_eq_perform i s).trans (perform_of_disabled i (effect i) s h)

end Sys2Proof.Machine
